-- ==== Sys2Proof/Word.lean ====
section
/-! DEFINITION. The word types of the Volud ZV48-LX model (spec 00_scope R7, R8: all multi-byte fields are little-endian).
Only names for the widths stand here; every helper over them is in `Sys2Proof/Machine/Bits.lean`. -/

namespace Sys2Proof

/-- One byte. -/
abbrev Byte := BitVec 8

/-- A string of bytes, byte 0 first. -/
abbrev Bytes := List Byte

/-- A 64-bit register or word (R13: arithmetic modulo 2^64). -/
abbrev Word := BitVec 64

/-- A 32-bit element of a tile register (R157). -/
abbrev Elem := BitVec 32

/-- An 80-bit tile element of a matrix array (R100). -/
abbrev Acc := BitVec 80

/-- A 64-byte digest, byte 0 in the least significant place (R264, R534). -/
abbrev Digest := BitVec 512

/-- A 128-bit key (R189). -/
abbrev Key128 := BitVec 128

end Sys2Proof
end

