-- ==== Sys2Proof/Syntax.lean ====
section
/-! DEFINITION. The commands of the Volud ZV48-LX: one constructor of `Instr` per row of spec/opcode_table.json, with the
row's operands. What arrives from outside the block (bytes read from host memory, messages, readings of sensors and meters,
outcomes of trainings and tests) stands in the operands. An instruction of the core instruction set carries its 64-bit
instruction word (R205, R209), so that reserved fields are part of the operand. -/

namespace Sys2Proof

/-- Who sends a management request (R502, R504): the source address, whether the TLS handshake succeeded with a certificate
that chains to an installed trust anchor, and the certificate presented, as a number. -/
structure Client where
  src  : Nat
  tls  : Bool
  cert : Nat
  deriving DecidableEq, Repr

/-- The roles of R504. -/
inductive Role where
  | admin | operator | keysvc | reader
  deriving DecidableEq, Repr

/-- The three turn sources of R34. -/
inductive TurnSource where
  | marks | ptp | internal
  deriving DecidableEq, Repr

/-- A change of a turn parameter or of the source (R35, R36, R47). -/
inductive TurnChange where
  | source (s : TurnSource)
  | period (p : Nat)
  | epoch (e : Nat)
  | startValue (v : Nat)
  | inputPorts (m : BitVec 8)
  | outputPorts (m : BitVec 8)
  | lead (l : Nat)
  | holdover (h : Nat)
  | stretch (s : Nat)
  | jump (j : Nat)
  | ptpDomain (d : Nat)
  deriving DecidableEq, Repr

/-- A Redfish change of a management parameter (R505): one constructor per parameter of R99, R156, R262, R307, R319, R372,
R381, R400, R415, R440, R466, R494, R503, R519, R543 and R560. -/
inductive Change where
  | widthMode (uniform : Bool)
  | uniformWidth (w : Nat)
  | fillerThreshold (n : Nat)
  | selfTestInterval (h : Nat)
  | deadlineBounds (lo hi : Nat)
  | deadlockInterval (t : Nat)
  | globalBoundary (g : Nat)
  | scrubInterval (h : Nat)
  | digestScrub (h : Nat)
  | shardTimeout (tenths : Nat)
  | replica (coll : Nat) (on : Bool)
  | backing (coll : Nat) (exts : List (Nat × Nat))
  | cxlMemSize (gib : Nat)
  | layout (parts : Nat)
  | funcPartition (f p : Nat)
  | funcPriority (f p : Nat)
  | contextQuota (f q : Nat)
  | sliceLength (p q : Nat)
  | spillRegion (exts : List (Nat × Nat))
  | spillQuota (f bytes : Nat)
  | nodeId (n : Nat)
  | portEnable (p : Nat) (on : Bool)
  | route (node : Nat) (valid : Bool) (port : Nat)
  | transit (p : Nat) (on : Bool)
  | fmNode (n : Option Nat)
  | remoteTimeout (ms : Nat)
  | retryLimit (ms : Nat)
  | abuseThreshold (n : Nat)
  | stallTurns (n : Nat)
  | perfMode (level : Bool)
  | capM (w : Nat)
  | capB (w : Nat)
  | offset (g : Nat) (mv : Int)
  | watchdogPolicy (keep : Bool)
  | recoveryPeriod (s : Nat)
  | sealInterval (n : Nat)
  | opticalTrim (p : Nat) (halfDb : Nat)
  | allowList (l : List (BitVec 64 × Digest))
  | trustAnchors (l : List Nat)
  | identities (l : List (Nat × List Role))
  deriving DecidableEq, Repr

/-- The payload of a MARK flit (R42, R392). -/
structure Mark where
  turn   : BitVec 64
  period : BitVec 32
  lead   : BitVec 32
  root   : BitVec 64
  hops   : Nat
  deriving DecidableEq, Repr

/-- A ring: of a context (R326), or the admin ring of F0. -/
inductive RingId where
  | ctx (x r : Nat)
  | admin
  deriving DecidableEq, Repr

/-- What a failing host access was for (R325). -/
inductive HostAccess where
  | descriptor (r : RingId)
  | completion (r : RingId)
  | shard (h : Word) (i : Nat)
  | manifest (h : Word)
  | line (f a : Nat) (write : Bool)
  deriving DecidableEq, Repr

/-- A count of events of the activity model (R460): in a group of R461, at an operating point, of the event e of its table, for the context that
the event's counter assigns it to, or for none. -/
structure EventCount where
  group : Nat
  op    : Nat
  event : Nat
  ctx   : Option Nat
  count : Nat
  deriving DecidableEq, Repr

/-- A time for which a domain was powered at one operating point; for a core group, the contexts that its cores served, one entry for each core
that served one (R460). -/
structure PowerSpan where
  domain : Nat
  op     : Nat
  ticks  : Nat
  users  : List Nat := []
  deriving DecidableEq, Repr

/-- What the activity model is evaluated from (R460): the events counted, the times for which domains were powered, and the mean temperature of each
domain in thousandths of a degree Celsius. -/
structure ActivityIn where
  events : List EventCount := []
  spans  : List PowerSpan := []
  temps  : List (Nat × Int) := []
  deriving DecidableEq, Repr

/-- What the governor reads at a boundary, for the turn that ends (R26, R459 to R464), with the cycle counts of that turn which no other command
carries: (core, cycles lost to bank arbitration, cycles of stalls that ended otherwise than by SLUICE_CHECK_PASS) (R153). -/
structure EnergyIn where
  /-- the input meter's increase in the turn, µJ -/
  input  : Nat
  /-- the increase of each domain's and memory supply's meter, in the order of R590 (46 domains, then MS0 to MS3) -/
  meters : List Nat
  act    : ActivityIn := {}
  /-- (context, core ticks) -/
  coreTicks : List (Nat × Nat) := []
  waits  : List (Nat × Nat × Nat) := []
  deriving DecidableEq, Repr

/-- What the governor reads in one 100 µs tick, over the last 1 ms (R451). -/
structure TickIn where
  act   : ActivityIn := {}
  /-- the input meter's reading, mW -/
  meter : Nat
  /-- predicted addition of raising each quadrant one point, mW -/
  raise : List Nat
  deriving DecidableEq, Repr

/-- The header of a fabric message (R396). -/
structure MsgHdr where
  mtype   : Nat
  z       : Bool
  poison  : Bool
  rmode   : Nat
  hops    : Nat
  status  : Nat
  dstNode : Nat
  srcNode : Nat
  dstCtx  : Nat
  srcCtx  : Nat
  window  : Nat
  op      : Nat
  len     : Nat
  roff    : Nat
  tag     : Nat
  part    : Nat
  npart   : Nat
  zmap    : BitVec 64
  deriving DecidableEq, Repr

/-- A fabric message: its header and the data bytes it carries on the wire (R396, R398). -/
structure Msg where
  hdr  : MsgHdr
  data : Bytes
  deriving DecidableEq, Repr

/-- Where a message comes from: over a port, or over the hub from this Volud (R399). -/
inductive Via where
  | hub
  | port (p : Nat)
  deriving DecidableEq, Repr

/-- The fields of a HELLO (R387, R395). -/
structure Hello where
  lo      : Nat
  hi      : Nat
  node    : Nat
  device  : BitVec 64
  lanes   : Nat
  credits : List Nat
  lastSeq : Nat
  deriving DecidableEq, Repr

/-- An authentication LINK flit of R520: the checks on certificates and signatures are made by the security processor, and
their outcomes arrive with the flit. -/
inductive AuthMsg where
  | certs (chainOk : Bool) (serial : BitVec 64) (extDigest : Digest) (nonce : Bytes)
  | secret (decoded : Option Bytes)
  | signature (ok : Bool)
  deriving DecidableEq, Repr

/-- A DATA flit as received (R389 to R394). -/
structure Flit where
  seq    : Nat
  ack    : Nat
  nak    : Bool
  credVc : Nat
  cred   : Nat
  epoch  : Nat
  fecOk  : Bool
  fecCorrected : Nat
  gcmOk  : Bool
  msgs   : List Msg
  deriving DecidableEq, Repr

/-- What a management client reads (R504). -/
inductive MgmtSource where
  | attestation | telemetry | energy | eventLog | scrubLog | ledger | config
  deriving DecidableEq, Repr

/-- A keeper cause (R489). -/
inductive KeeperCause where
  | cap | inputRange | memCritical | dieCritical | regFaultHf | watchdog | request
  deriving DecidableEq, Repr

/-- An engine of a core (R147, R148). -/
inductive Engine where
  | control | leat | vector | array (a : Nat) | window
  deriving DecidableEq, Repr

/-- A transport of SPDM (R499). -/
inductive SpdmTransport where
  | doe | network
  deriving DecidableEq, Repr

/-- A unit that can be re-tested (R561). -/
inductive TestUnit where
  | array (x : Nat)
  | lanes (c : Nat)
  | core (c : Nat)
  deriving DecidableEq, Repr

/-- A physical upset of stored bits, as the check bits will see it (R139, R186): in an 8-byte word of a core's scratchpad (by logical
address / 8) or in a tile-register element or mask row of its vector engine; correctable or not. -/
inductive Upset where
  | word (c i : Nat) (hard : Bool)
  | tile (c t i j : Nat) (hard : Bool)
  | mask (c m i : Nat) (hard : Bool)
  | codeword (dpa : Nat) (err : List (Nat × Byte))
  deriving DecidableEq, Repr

/-- What training and tests find when domains come up (R92, R186, R239, R240): memory channels that failed, failing physical columns of arrays,
and failing physical lanes of cores. -/
structure Tested where
  channels : List Nat := []
  columns  : List (Nat × Nat) := []
  lanes    : List (Nat × Nat) := []
  deriving DecidableEq, Repr

/-- A timestamp of a PTP message, in ns, with the domain of the message (R47). -/
structure PtpStamp where
  domain : Nat
  time   : Nat
  deriving DecidableEq, Repr

/-- The grandmaster that a PTP Announce message names, with the domain of the message (R49). -/
structure PtpMaster where
  domain : Nat
  gm     : Nat
  deriving DecidableEq, Repr

/-- What an array meets in an issue cycle: a parity error, by its column (0xFFFF for the A-hopper) and hopper row (R92), and the cycles for which
the operand A and the operand B have been missing since the latest step (R98, R288). -/
structure CycleIn where
  parity : Option (Nat × Nat) := none
  stallA : Nat := 0
  stallB : Nat := 0
  deriving DecidableEq, Repr

/-- A cycle without an operand step (R95, R96): whether operands wait and the level forbids issue, and the cycles since the array's latest step. -/
structure FillerIn where
  ramp   : Bool
  cycles : Nat
  deriving DecidableEq, Repr

/-- The requests of a 64-cycle interval, numbered from the turn boundary: a global array number, and whether it asks to rise (R96, R97). -/
structure LevelAsks where
  interval : Nat
  asks     : List (Nat × Bool)
  deriving DecidableEq, Repr

/-- The end of a drain: the array, and the cycles for which bank conflicts made a shared shift wait (R85). -/
structure DrainEnd where
  array  : Nat
  cycles : Nat
  deriving DecidableEq, Repr

/-- The commands: one constructor per row of the opcode table, in the table's order. -/
inductive Instr where
  -- start, reset, keeper
  | coldStart (imageOk fieldOk hot : Bool) (failedChannels : List Nat) (badColumns badLanes : List (Nat × Nat)) (laserFault : Bool)
  | inputRemoved
  | ready (found : Tested)
  | boardResetAssert
  | hotReset
  | hostLinkDownExpiry
  | hostLinkRetrain (words : List (RingId × Word))
  | mgmtWarmReset (who : Client)
  | mgmtColdReset (who : Client)
  | hubFatal (entropy : Bool)
  | flr (f : Nat)
  | keeperEntry (cause : KeeperCause) (hung : List Nat)
  | mgmtKeeperRequest (who : Client) (enter : Bool)
  | recoveryPeriodExpiry (x : Nat)
  | coreHang (c : Nat)
  | quadrantReset (q : Nat) (who : Option Client) (hung : List Nat) (failedChannels : List Nat)
  | regFault (d : Nat)
  | dieTrip
  | inputOutOfRange (high : Bool)
  | inputRecovered
  | powerBrakeAssert
  | powerBrakeDeassert
  -- turns
  | turnBoundary (e : EnergyIn) (found : Tested) (upsets : List Upset)
  | commandRelease (h : Word) (hdrs : List (Option Bytes))
  | deadlineExpiry (h : Word)
  | weightKeyExpiry (d : Digest)
  | sealInterval
  | energyUnreconciled
  | energyReconciled
  | markEmit
  | phaseLimit
  | mark (p : Nat) (m : Mark)
  | sourceSilence
  | holdoverLimit
  | ptpSync (origin : PtpStamp) (rx : Nat) (twoStep : Bool) (gm : Nat)
  | ptpAnnounce (m : PtpMaster)
  | ptpSyncTimeout
  | turnSourceSelect (who : Client) (turn : Option Nat) (c : TurnChange)
  | turnConflictClear (who : Client)
  -- governor, temperature
  | governorTick (t : TickIn)
  | droopDetect (q : Nat)
  | droopRecover (q cycles : Nat) (excess : Bool)
  | dieTempSample (quad : List Int) (hub : Int)
  | packageTempSample (m : Nat) (t : Int)
  | refreshRateFall (m : Nat)
  | pacedRest
  | heartbeat (p : Nat)
  | fwHeartbeatLate (p : Nat)
  | fwWatchdog (p : Nat)
  -- host link
  | hostLinkTrained (flit256 : Bool) (width rate : Nat)
  | configRequest (f : Nat) (off : Nat) (write : Option Word)
  | mmioDoorbell (write : Bool) (addr size : Nat) (v : Word)
  | ringResume (r : RingId) (v : Word)
  | doorbellSnoop (r : RingId) (v : Word)
  | doorbellPoll (r : RingId) (v : Word)
  | snoopInvalid (f addr : Nat)
  | atsInvalidation (f addr len : Nat)
  | cxlMemRead (addr len : Nat) (err : List (Nat × Byte))
  | cxlMemWrite (addr : Nat) (d : Bytes)
  | cxlIoReadTimeout (a : HostAccess)
  | cxlCacheTimeout (a : HostAccess)
  | cxlCacheErrorResponse (a : HostAccess)
  | malformedTlp
  | unexpectedCompletion
  | malformedCxlMessage
  | hostViral
  | hostIdeFail
  | ideKm (stream : Nat) (keys : Bytes)
  | msixUnmask (f v : Nat)
  -- mailbox and SPDM
  | identify
  | getFwInfo
  | transferFw (action slot offset : Nat) (d : Bytes) (verifies : Bool)
  | activateFw (mode slot : Nat)
  | getSupportedLogs
  | getLog (uuid off len : Nat)
  | getVersion (t : SpdmTransport)
  | getCertificate (t : SpdmTransport) (slot off len : Nat)
  | challenge (t : SpdmTransport) (slot : Nat) (nonce : Bytes)
  | getMeasurements (t : SpdmTransport) (index : Nat) (nonce : Bytes)
  | keyExchange (t : SpdmTransport) (f : Nat) (dh : Bytes)
  -- rings
  | descriptorFetch (r : RingId) (d : Option Bytes)
  | descriptorReadRetry (r : RingId) (d : Option Bytes)
  | completionWrite (r : RingId) (ok : Bool)
  | irqTimerExpiry (r : RingId)
  | openContext (h : Word) (hdrs : List (Option Bytes))
  | closeContext (h : Word)
  | loadGen (h : Word)
  | unloadGen (h : Word)
  | setGen (h : Word)
  | loadTable (h : Word)
  | openSeq (h : Word)
  | closeSeq (h : Word)
  | migrateSeq (h : Word)
  | stepCmd (h : Word)
  | launch (h : Word)
  | copyCmd (h : Word)
  | fill (h : Word)
  | openWindow (h : Word)
  | closeWindow (h : Word)
  | collective (h : Word)
  | fenceCmd (h : Word)
  | waitTurn (h : Word)
  | query (h : Word)
  | sealLedger (h : Word)
  | scrub (h : Word)
  | tableSlotWrite (h : Word)
  | genPagesFreed (h : Word)
  | seqMigrateApply (h : Word)
  | scrubDone (x : Nat)
  | kernelCommandEnd (h : Word)
  | spillCopyDone (x sid : Nat)
  | spillReturnDone (x sid : Nat) (folios : List (Nat × Option Bytes))
  | placementBetweenBoundaries (x : Nat)
  | ctxReset (v : Word)
  | mgmtContextReset (who : Client) (x : Nat)
  -- control core: the core and the instruction word
  | add (c : Nat) (w : Word)
  | sub (c : Nat) (w : Word)
  | mul (c : Nat) (w : Word)
  | mulhu (c : Nat) (w : Word)
  | mulhs (c : Nat) (w : Word)
  | divu (c : Nat) (w : Word)
  | divs (c : Nat) (w : Word)
  | remu (c : Nat) (w : Word)
  | rems (c : Nat) (w : Word)
  | and (c : Nat) (w : Word)
  | or (c : Nat) (w : Word)
  | xor (c : Nat) (w : Word)
  | shl (c : Nat) (w : Word)
  | shr (c : Nat) (w : Word)
  | sar (c : Nat) (w : Word)
  | rotl (c : Nat) (w : Word)
  | sltu (c : Nat) (w : Word)
  | slts (c : Nat) (w : Word)
  | addi (c : Nat) (w : Word)
  | andi (c : Nat) (w : Word)
  | ori (c : Nat) (w : Word)
  | xori (c : Nat) (w : Word)
  | shli (c : Nat) (w : Word)
  | shri (c : Nat) (w : Word)
  | sari (c : Nat) (w : Word)
  | sltui (c : Nat) (w : Word)
  | sltsi (c : Nat) (w : Word)
  | sethi (c : Nat) (w : Word)
  | beq (c : Nat) (w : Word)
  | bne (c : Nat) (w : Word)
  | bltu (c : Nat) (w : Word)
  | bgeu (c : Nat) (w : Word)
  | blts (c : Nat) (w : Word)
  | bges (c : Nat) (w : Word)
  | jal (c : Nat) (w : Word)
  | jalr (c : Nat) (w : Word)
  | lds (c : Nat) (w : Word)
  | sts (c : Nat) (w : Word)
  | ldm (c : Nat) (w : Word)
  | stm (c : Nat) (w : Word)
  | urd (c : Nat) (w : Word)
  | uwr (c : Nat) (w : Word)
  | turnrd (c : Nat) (w : Word)
  | coreFence (c : Nat) (w : Word)
  | exitKernel (c : Nat) (w : Word)
  | trapret (c : Nat) (w : Word)
  | sarm (c : Nat) (w : Word)
  | sfill (c : Nat) (w : Word)
  | sdrain (c : Nat) (w : Word)
  | swait (c : Nat) (w : Word)
  | spoll (c : Nat) (w : Word)
  | pass (c : Nat) (w : Word)
  | lmove (c : Nat) (w : Word)
  | lstream (c : Nat) (w : Word)
  | lwalk (c : Nat) (w : Word)
  | remote (c : Nat) (w : Word)
  | unitQueueAccept (c cycles : Nat)
  -- vector engine
  | fadd (c : Nat) (w : Word)
  | fsub (c : Nat) (w : Word)
  | fmul (c : Nat) (w : Word)
  | ffma (c : Nat) (w : Word)
  | ffms (c : Nat) (w : Word)
  | fneg (c : Nat) (w : Word)
  | fabs (c : Nat) (w : Word)
  | fmin (c : Nat) (w : Word)
  | fmax (c : Nat) (w : Word)
  | sel (c : Nat) (w : Word)
  | vecCopy (c : Nat) (w : Word)
  | fcmp (c : Nat) (w : Word)
  | icmp (c : Nat) (w : Word)
  | iadd (c : Nat) (w : Word)
  | isub (c : Nat) (w : Word)
  | imul (c : Nat) (w : Word)
  | imin (c : Nat) (w : Word)
  | imax (c : Nat) (w : Word)
  | iand (c : Nat) (w : Word)
  | ior (c : Nat) (w : Word)
  | ixor (c : Nat) (w : Word)
  | ishl (c : Nat) (w : Word)
  | ishr (c : Nat) (w : Word)
  | isar (c : Nat) (w : Word)
  | cvt (c : Nat) (w : Word)
  | fdiv (c : Nat) (w : Word)
  | frcp (c : Nat) (w : Word)
  | fsqrt (c : Nat) (w : Word)
  | frsqrt (c : Nat) (w : Word)
  | ffun (c : Nat) (w : Word)
  | dadd (c : Nat) (w : Word)
  | dsub (c : Nat) (w : Word)
  | dmul (c : Nat) (w : Word)
  | dfma (c : Nat) (w : Word)
  | dmin (c : Nat) (w : Word)
  | dmax (c : Nat) (w : Word)
  | dcmp (c : Nat) (w : Word)
  | ddiv (c : Nat) (w : Word)
  | dsqrt (c : Nat) (w : Word)
  | xpose (c : Nat) (w : Word)
  | vecRotl (c : Nat) (w : Word)
  | perm (c : Nat) (w : Word)
  | bcol (c : Nat) (w : Word)
  | rrow (c : Nat) (w : Word)
  | rcol (c : Nat) (w : Word)
  | mlog (c : Nat) (w : Word)
  | mtot (c : Nat) (w : Word)
  | ttom (c : Nat) (w : Word)
  | summ (c : Nat) (w : Word)
  | summaryWrite (c cycles : Nat)
  | vld (c : Nat) (w : Word)
  | vst (c : Nat) (w : Word)
  | quant (c : Nat) (w : Word)
  | combw (c : Nat) (w : Word)
  | combc (c : Nat) (w : Word)
  | rand (c : Nat) (w : Word)
  | sample (c : Nat) (w : Word)
  | smerge (c : Nat) (w : Word)
  -- arrays
  | passStart (c a : Nat) (stallA stallB stallSlot : Nat)
  | operandStep (c a : Nat) (e : CycleIn)
  | attemptRestart (c a cycles : Nat)
  | fillerStep (c a : Nat) (e : FillerIn)
  | levelChangeGrant (q : Nat) (l : LevelAsks)
  | drainBegin (c a : Nat) (parity : Option Nat)
  | preloadShift (c a cycles : Nat)
  | drainDone (c : Nat) (e : DrainEnd)
  | arraySelfTest (u : TestUnit) (failing : List Nat)
  -- sluices
  | sluiceCheckPass (c : Nat) (e : Engine) (cycles : Nat)
  | sluiceTimeout (c : Nat) (e : Engine)
  | deadlock (c : Nat)
  -- leat
  | leatDelivery (c starved : Nat)
  | streamReplay (c a : Nat)
  | tierPrefetchDone (x gen layer : Nat)
  -- memory and shards
  | patrolScrubRead (ch : Nat) (err : List (Nat × Byte))
  | digestScrub (x gen shard : Nat)
  | shardArrival (h : Word) (i : Nat) (d : Option Bytes)
  | shardReadTimeout (h : Word) (i : Nat)
  | replicaVerifyDone (coll : Nat) (ok : Bool)
  | backingCopyDone (coll shard : Nat) (d : Bytes)
  -- collectives
  | collCountCheck (h : Word)
  | collChunkReduce (h : Word)
  | collComplete (h : Word)
  | collStall (h : Word)
  | collLimit (h : Word)
  | collPutRepeat (h : Word) (tag : Nat)
  -- remote operations
  | put (v : Via) (m : Msg)
  | get (v : Via) (m : Msg)
  | atomic (v : Via) (m : Msg)
  | getData (v : Via) (m : Msg)
  | resp (v : Via) (m : Msg)
  | remoteRetryResend (tag : Nat) (expired : Bool)
  | remoteTimeout (tag : Nat)
  | remoteAbandoned (srcNode srcCtx tag : Nat)
  | peerDown (v : Option Via) (src node : Nat)
  | peerUp (v : Option Via) (src node : Nat)
  -- optical ports
  | lightDetected (p : Nat)
  | lightLost (p : Nat)
  | trainingDone (p lanes : Nat) (roundTripNs turnaroundNs : List Nat)
  | trainingTimeout (p : Nat)
  | hello (p : Nat) (h : Hello)
  | linkAuth (p : Nat) (m : AuthMsg)
  | darkHoldExpiry (p : Nat)
  | dataFlit (p : Nat) (f : Flit)
  | idleFlit (p : Nat) (f : Flit)
  | nak (p ack : Nat)
  | nakRepeat (p : Nat)
  | ackStall (p : Nat)
  | recoveryExpiry (p : Nat)
  | rekeyCount (p : Nat)
  | rekeyAnnounce (p epoch : Nat)
  | creditStall (p vc us : Nat)
  | laserFail
  | presenceBurst (p : Nat)
  | portReset (p : Nat) (who : Client)
  -- management
  | claim (who : Client) (code : Bytes) (anchors : List Nat) (admin : Nat)
  | releaseOwnership (who : Client)
  | mgmtConfigChange (who : Client) (turn : Option Nat) (etag : Option Nat) (c : Change)
  | mgmtBlockExpiry (src : Nat)
  | mgmtRead (who : Client) (src : MgmtSource) (ctx idx : Nat)
  | eventSubscribe (who : Client) (push : Bool)
  | telemetryClear (who : Client) (addrs : List Nat)
  | weightKeyImport (who : Client) (r : Bytes) (opened : Option Bytes)
  | weightKeyRemove (who : Client) (d : Digest)
  | refCollectionCreate (who : Client) (id part : Nat) (atUse : Bool) (width : Nat) (replica : Bool) (encrypted : Bool)
  | refCollectionLoad (who : Client) (id : Nat) (block : Bytes)
  | refCollectionDelete (who : Client) (id : Nat)
  | fwStage (who : Client) (image : Bytes) (verifies : Bool)
  | fwActivateRequest (who : Client) (turn : Nat)
  | fwCopyDone (ok : Bool)
  | retestRequest (who : Client) (u : TestUnit)
  | recoveryImageWrite (image : Bytes) (verifies : Bool)
  | recoveryCopyStaged
  | fieldAreaWrite
  -- setup registers
  | adminRingEnable (v : Word) (hdr : Option Bytes)
  | adminRingDisable (v : Word)
  | adminDb (v : Word)
  | hostCap (v : Word)
  | errcapClear (v : Word)
  | evqBase (f : Nat) (v : Word)
  | evqHead (f : Nat) (v : Word)
  | eventDelivery (f : Nat)
  | frameEntry (f : Nat) (v : Word)
  | treadSel (v : Word)
  | recordCopyDone
  | ledgerRelease (v : Word)
  | turnCountRead
  | regWrite (off size : Nat) (v : Word)
  -- late rows
  | boardResetDeassert
  | hostLinkDown
  | manifestArrival (h : Word) (d : Option Bytes)
  | replicaRebuildDone (coll : Nat)
  | ldmDataReturn (c rd : Nat) (err : List (Nat × Byte))
  | ptpFollowUp (origin : PtpStamp)
  | ptpDelayResp (receipt : PtpStamp)
  | getCapabilities (t : SpdmTransport)
  | negotiateAlgorithms (t : SpdmTransport) (offer : List Nat)
  | getDigests (t : SpdmTransport)
  | finish (t : SpdmTransport) (ok : Bool)
  | endSession (t : SpdmTransport)
  deriving DecidableEq, Repr

end Sys2Proof
end

