-- ==== Sys2Proof/Machine/Bits.lean ====
section
/-! DEFINITION. Bit fields, sign extension and byte order (R8: little-endian; R13: the pseudocode's integers). -/

namespace Sys2Proof.Machine

/-- The `n` bits of `v` from bit `lo` up: `v[lo + n - 1 : lo]` of R13. -/
def fieldN (v lo n : Nat) : Nat := (v >>> lo) % 2 ^ n

/-- The `n` bits of a word from bit `lo` up. -/
def field (w : Word) (lo n : Nat) : Nat := fieldN w.toNat lo n

/-- Bit `i` of a word. -/
def bitAt (w : Word) (i : Nat) : Bool := field w i 1 == 1

/-- The two's-complement value of the low `n` bits of `v`. -/
def signN (n v : Nat) : Int :=
  let m := v % 2 ^ n
  if m < 2 ^ (n - 1) then (m : Int) else (m : Int) - (2 ^ n : Nat)

/-- A signed field of a word. -/
def sfield (w : Word) (lo n : Nat) : Int := signN n (field w lo n)

/-- An integer modulo 2^n, as a natural number. -/
def wrapN (n : Nat) (i : Int) : Nat := (i % (2 ^ n : Nat)).toNat

/-- An integer modulo 2^64 (R13). -/
def wordOf (i : Int) : Word := BitVec.ofInt 64 i

/-- The bits of an amount, split in `n` bytes, least significant first (R8). -/
def toLe : Nat → Nat → Bytes
  | 0, _ => []
  | n + 1, v => BitVec.ofNat 8 v :: toLe n (v / 256)

/-- The number whose little-endian bytes are given (R8). -/
def ofLe : Bytes → Nat
  | [] => 0
  | b :: r => b.toNat + 256 * ofLe r

/-- `n` bytes of a byte string from offset `off` as a little-endian number; bytes beyond its end count as zero. -/
def leAt (b : Bytes) (off n : Nat) : Nat := ofLe ((b.drop off).take n)

/-- `n` bytes from an offset, filled up with zeros beyond the end of the string. -/
def sliceAt (b : Bytes) (off n : Nat) : Bytes :=
  let t := (b.drop off).take n
  t ++ List.replicate (n - t.length) 0

/-- A byte string of exactly `n` bytes: cut, or filled up with zeros. -/
def fitTo (n : Nat) (b : Bytes) : Bytes := sliceAt b 0 n

/-- The bits set in the low `n` bits of a number, least significant first. -/
def bitsOf (n v : Nat) : List Nat := (List.range n).filter fun i => v.testBit i

/-- The number whose set bits are listed. -/
def ofBits (l : List Nat) : Nat := l.foldl (fun a i => a ||| 2 ^ i) 0

/-- Number of bits set in the low `n` bits. -/
def popCount (n v : Nat) : Nat := (bitsOf n v).length

/-- Rounded-up quotient; the divisor is never zero. -/
def ceilDiv (a b : Nat) : Nat := (a + b - 1) / b

/-- Are all the bytes of a string zero? -/
def allZero (b : Bytes) : Bool := b.all fun x => x == 0

/-- Are all the bits of `v` that the mask selects zero? -/
def clearIn (v mask : Nat) : Bool := v &&& mask == 0

/-- The two's-complement minimum and maximum of `n` bits. -/
def minS (n : Nat) : Int := -(2 ^ (n - 1) : Nat)

/-- See `minS`. -/
def maxS (n : Nat) : Int := (2 ^ (n - 1) : Nat) - 1

/-- Distance from `b` forward to `a` modulo 2^32, for the counters of the rings and event queues (R329, R472). -/
def ahead32 (a b : Nat) : Nat := (a + 2 ^ 32 - b % 2 ^ 32) % 2 ^ 32

/-- Truncated division of integers, as `/` of R13 on signed types. -/
def quotT (a b : Int) : Int := Int.tdiv a b

/-- The remainder with the sign of the dividend, as `%` of R13. -/
def remT (a b : Int) : Int := Int.tmod a b

/-- The first element of a list that a test accepts, with its place. -/
def findAt {α : Type} (p : α → Bool) : List α → Option (Nat × α)
  | [] => none
  | a :: r => if p a then some (0, a) else (findAt p r).map fun x => (x.1 + 1, x.2)

/-- Apply a function to the element at a place of a list. -/
def modAt {α : Type} (f : α → α) : Nat → List α → List α
  | _, [] => []
  | 0, a :: r => f a :: r
  | n + 1, a :: r => a :: modAt f n r

/-- Apply a function to every element that a test accepts. -/
def modWhere {α : Type} (p : α → Bool) (f : α → α) (l : List α) : List α :=
  l.map fun a => if p a then f a else a

/-- Add to a list without repeats. -/
def addNew {α : Type} [DecidableEq α] (a : α) (l : List α) : List α := if a ∈ l then l else l ++ [a]

/-- Insertion sort by a key, stable. -/
def insertBy {α : Type} (key : α → Nat) (a : α) : List α → List α
  | [] => [a]
  | b :: r => if key a < key b then a :: b :: r else b :: insertBy key a r

/-- See `insertBy`. -/
def sortBy {α : Type} (key : α → Nat) (l : List α) : List α := l.foldl (fun acc a => insertBy key a acc) []

/-- Repeat a function. -/
def iterN {α : Type} (f : α → α) : Nat → α → α
  | 0, a => a
  | n + 1, a => iterN f n (f a)

end Sys2Proof.Machine
end

