-- ==== Sys2Proof/Machine/State.lean ====
section
/-! DEFINITION. The state of the Volud ZV48-LX: everything spec/ gives the module, as plain data, and `State.reset`.
A table `Tab α` is a sparse list of (key, value) pairs in one canonical form: keys strictly rising, and no entry equal to what
an unlisted key reads as. Counts of time are in 10 ns ticks of the reference oscillator (R31). -/

namespace Sys2Proof.Machine

/-- A sparse table: (key, value) pairs, keys strictly rising. -/
abbrev Tab (α : Type) := List (Nat × α)

/-- Nothing in this model faults the block as a whole: every fault of the spec is an event record, a status or a stopped
command, held in the state. The one constructor is raised by no command (safe). -/
inductive Fault where
  /-- never raised: kept so that the type has a name for a stop of the block (safe). -/
  | halted
  deriving DecidableEq, Repr

/-- Refusals. -/
inductive Refusal where
  /-- raised by an arm of `exec` whose command has no meaning yet (safe: the model stops). -/
  | notModelled (mnemonic : String)
  deriving DecidableEq, Repr

/-! ## Counters -/

/-- A 48-bit counter in the layout of R69 and R474. -/
structure Counter where
  cnt : Nat := 0
  sat : Bool := false
  deriving DecidableEq, Repr

/-! ## Turn unit -/

/-- The states of R38. -/
inductive TurnState where
  | unset | locking | locked | free | holdover | lost
  deriving DecidableEq, Repr

/-- The parameters of R35 (and the PTP domain of R47), with their defaults. -/
structure TurnParams where
  source  : Option TurnSource := none
  period  : Nat := 100000
  epoch   : Nat := 0
  start   : Nat := 0
  inPorts : BitVec 8 := 0
  outPorts : BitVec 8 := 0
  lead    : Nat := 2000
  holdLim : Nat := 16
  stretchLim : Nat := 64
  jumpLim : Nat := 65536
  ptpDomain : Nat := 0
  deriving DecidableEq, Repr

/-- PTP state of R47 to R49. -/
structure PtpState where
  gm       : Option Nat := none
  good     : Nat := 0
  pathDelay : Nat := 0
  offset   : Int := 0
  /-- a two-step Sync whose Follow_Up is awaited: its time stamp in ns, and the tick of its arrival -/
  pendingRx : Option (Nat × Nat) := none
  /-- the Delay_Req sent and not yet answered: t1, t2 and t3 of the exchange, in ns (R47) -/
  delayReq : Option (Nat × Nat × Nat) := none
  /-- ticks still to be added to turns at no more than 100 ppm (R48) -/
  slew     : Int := 0
  deriving DecidableEq, Repr

/-- The turn unit (R31 to R53, R600). -/
structure TurnUnit where
  count   : BitVec 64 := 0
  phase   : BitVec 32 := 0
  st      : TurnState := .unset
  params  : TurnParams := {}
  /-- changes of R36 waiting for their boundary: (turn named, change); turn 0 names none -/
  sched   : List (Nat × TurnChange) := []
  /-- input ports that delivered a valid mark in the previous turn, and the valid marks of this turn by port (R45) -/
  validPrev : List Nat := []
  marksNow : Tab Mark := []
  followed : Option Nat := none
  lastMark : Option Mark := none
  /-- the period P that was in force before the latest selection of link marks (R600) -/
  selPeriod : Nat := 100000
  /-- a boundary that the source or a selection has placed: its turn, and the tick of the model's clock at which it falls (R38, R46) -/
  placed  : Option (BitVec 64 × Nat) := none
  /-- the lowest turn number that the latest boundary carried (R41) -/
  lowest  : BitVec 64 := 0
  stretching : Bool := false
  /-- boundaries in a row with no valid mark -/
  silent  : Nat := 0
  /-- turns in HOLDOVER and LOST since the source was lost (R588 HELD) -/
  held    : Nat := 0
  conflict : Bool := false
  clearing : Bool := false
  conflictRaised : Bool := false
  disagreeRaised : Bool := false
  emitted : Bool := false
  discards : Counter := {}
  ptp     : PtpState := {}
  /-- the phase latched by the latest read of TURN_COUNT (R588) -/
  latched : BitVec 32 := 0
  deriving DecidableEq, Repr

/-! ## Management parameters -/

/-- A route entry of R400. -/
structure Route where
  valid : Bool := false
  port  : Nat := 0
  deriving DecidableEq, Repr

/-- The parameters of one function (R381). -/
structure FuncParams where
  partition : Nat := 0
  priority : Nat := 1
  quota    : Nat := 256
  spillQuota : Nat := 0
  deriving DecidableEq, Repr

/-- Array, sluice, memory, host and ledger parameters (R99, R156, R262, R307, R319, R440, R494, R543) with their defaults. -/
structure Params where
  uniform : Bool := false
  wU      : Nat := 64
  filler  : Nat := 256
  selfTest : Nat := 24
  deadlineMin : Nat := 10000
  deadlineMax : Nat := 100000000
  deadlock : Nat := 10000
  g       : Nat := 1041
  gPending : Option Nat := none
  scrub   : Nat := 24
  digestScrub : Nat := 24
  shardTimeout : Nat := 20
  cxlMem  : Nat := 0
  cxlMemPending : Option Nat := none
  stallTurns : Nat := 1000
  watchdogKeep : Bool := false
  recovery : Nat := 600
  sealEvery : Nat := 1000
  deriving DecidableEq, Repr

/-- Scheduling and fabric parameters (R381, R400, R415) with their defaults. -/
structure NetParams where
  layout  : Nat := 1
  funcs   : Tab FuncParams := []
  slice   : Tab Nat := []
  spillRegion : List (Nat × Nat) := []
  node    : Option Nat := none
  enabled : BitVec 8 := 0
  routes  : Tab Route := []
  transit : BitVec 4 := 0
  fmNode  : Option Nat := none
  remoteTimeout : Nat := 100
  retryLimit : Nat := 1000
  abuse   : Nat := 1000
  trims   : Tab Nat := []
  deriving DecidableEq, Repr

/-! ## Governor -/

/-- The governor states of R450. -/
inductive GovState where
  | governed | level | levelSuspended | paced | keeper
  deriving DecidableEq, Repr

/-- One quadrant as the governor sees it (R441, R445, R456). -/
structure QuadGov where
  op      : Nat := 7
  stretch : Bool := false
  hot     : Bool := false
  throttled : Bool := false
  droopExcess : Bool := false
  fastest : Nat := 7
  slowest : Nat := 7
  deriving DecidableEq, Repr

/-- An energy record (R464). -/
structure EnergyRec where
  turn    : BitVec 64
  ctx     : Nat
  unattr  : Bool
  unreconciled : Bool
  skipped : Bool
  paced   : Bool
  level   : Bool
  measOnly : Bool
  ticks   : Nat
  energy  : Nat
  model   : Nat
  coreTicks : Nat
  memCw   : Nat
  cap     : Nat
  opMax   : Nat
  opMin   : Nat
  duty    : Nat
  deriving DecidableEq, Repr

/-- The governor (R441 to R466). -/
structure Governor where
  st      : GovState := .governed
  levelMode : Bool := false
  capM    : Nat := 1600
  capH    : Nat := 1900
  capB    : Nat := 0
  /-- caps in force since order step 4 (R447) -/
  capMNow : Nat := 1600
  capHNow : Nat := 1900
  /-- the PWRBRK_N pin, and whether C_B counts in E since the latest boundary (R449) -/
  brake   : Bool := false
  brakeInE : Bool := false
  quads   : Tab QuadGov := []
  offsets : Tab Int := []
  rest    : Bool := false
  duty    : Nat := 64
  raiseRun : Nat := 0
  measOnly : Bool := false
  /-- OP7, and rest where it is required, forced by the brake until the next boundary (R449) -/
  forced  : Bool := false
  /-- LEVEL_SUSPENDED has been raised, and LEVEL_RESUMED not yet (R450) -/
  resumeDue : Bool := false
  /-- per group, consecutive turns in which it failed to agree; consecutive turns in which every group agreed (R463) -/
  disagree : List Nat := [0, 0, 0, 0, 0]
  agree   : Nat := 0
  /-- per group, measured and modelled energy of the last turn in which it agreed (R462) -/
  factors : List (Nat × Nat) := [(1, 1), (1, 1), (1, 1), (1, 1), (1, 1)]
  meters  : Tab Nat := []
  inputMeter : Nat := 0
  charged : Tab Nat := []
  records : List EnergyRec := []
  /-- consecutive boundaries with no context run, per core group (R451, R452) -/
  idleTurns : Tab Nat := []
  /-- core groups on which a context has run in this turn, and runs there no more -/
  ranGroups : List Nat := []
  deriving DecidableEq, Repr

/-! ## Events -/

/-- An event record (R467). -/
structure EvRec where
  turn    : BitVec 64 := 0
  phase   : BitVec 32 := 0
  code    : Nat
  sev     : Nat := 0
  precise : Bool := false
  suppressed : Bool := false
  lost    : Bool := false
  recno   : Nat := 0
  handle  : Option Word := none
  ctx     : Option Nat := none
  func    : Nat := 0
  core    : Option Nat := none
  unit    : Nat := 0
  index   : Nat := 0
  codeOff : Option Nat := none
  address : Nat := 0
  detail  : List Nat := []
  deriving DecidableEq, Repr

/-- The event queue of one function (R472). -/
structure EvQueue where
  base    : Word := 0
  head    : BitVec 32 := 0
  written : Nat := 0
  dropped : Counter := {}
  held    : List EvRec := []
  lostNext : Bool := false
  /-- severities of the records written and not yet consumed, oldest first (R570) -/
  unread  : List Nat := []
  deriving DecidableEq, Repr

/-- The event unit (R471 to R473). -/
structure Events where
  log     : List EvRec := []
  recno   : Nat := 0
  queues  : Tab EvQueue := []
  perCtx  : Tab Nat := []
  perDev  : Nat := 0
  throttledCtx : Nat := 0
  throttledDev : Nat := 0
  deriving DecidableEq, Repr

/-! ## Memory -/

/-- A tag byte (R243). -/
structure TagByte where
  poison : Bool := false
  slot   : Nat := 0
  deriving DecidableEq, Repr

/-- One page-table entry in the fields of R248. -/
structure Pte where
  slot : Nat := 0
  addr : Nat := 0
  tier : Bool := false
  x    : Bool := false
  w    : Bool := false
  leaf : Bool := false
  v    : Bool := false
  deriving DecidableEq, Repr

/-- What a 2 MiB page of memory is given out for (R358, R526, R601). -/
inductive PageUse where
  | firmware (x : Nat)
  | pool (x : Nat)
  | gen (x g : Nat)
  | coll (id : Nat)
  | collReplica (id : Nat)
  | countTable (x : Nat)
  deriving DecidableEq, Repr

/-- The memory system (R238 to R263): data bytes by DPA, tag bytes by codeword, pages by DPA / 2 MiB. -/
structure Mem where
  /-- data bytes; an unlisted DPA reads as 0 (R548 step 6) -/
  data    : List Host.Cell := []
  tags    : Tab TagByte := []
  pages   : Tab PageUse := []
  retired : List Nat := []
  /-- error patterns of stored codewords, by DPA / 128, that no read has found yet: (byte 0 to 131, the bits that differ) (R242) -/
  upsets  : Tab (List (Nat × Byte)) := []
  /-- corrected errors of the last 24 h: (codeword, time) (R256) -/
  ceLog   : List (Nat × Nat) := []
  avail   : BitVec 4 := 0
  selfRefresh : BitVec 4 := 0
  /-- refresh multiple per package (R259), unlisted: 1 -/
  refresh : Tab Nat := []
  hotPkgs : List Nat := []
  /-- the latest temperature reading of each package, and the readings in a row for which it has been at least 3 °C below 85 °C, and
  below 95 °C (R259) -/
  temps   : Tab Int := []
  cool    : Tab (Nat × Nat) := []
  patrol  : Tab Nat := []
  /-- contexts for which MEM_KEY_MISMATCH has been raised in this turn outside any command (R245); 256 stands for none -/
  mismTurn : List Nat := []
  deriving DecidableEq, Repr

/-! ## Numbers, tensors -/

/-- A tensor descriptor as read (R59, R60). -/
structure Desc where
  base   : Nat
  rows   : Nat
  cols   : Nat
  stride : Nat
  scale  : BitVec 32
  zp     : Nat
  sr     : Bool
  fmt    : Nat
  tag    : Nat
  deriving DecidableEq, Repr

/-- A statistics entry (R69), with the same layout for the counts of one command (R71). -/
structure Stat where
  written : Counter := {}
  clipped : Counter := {}
  nonfinite : Counter := {}
  turn    : BitVec 64 := 0
  deriving DecidableEq, Repr

/-! ## Cores -/

/-- A sluice word of a parameter block (R215). -/
structure Sluice where
  mode  : Nat := 0
  count : Nat := 1
  first : Nat := 0
  deriving DecidableEq, Repr

/-- A sluice slot's state word (R140). -/
structure Slot where
  full : Bool := false
  c    : Nat := 1
  f    : Nat := 1
  d    : Nat := 1
  deriving DecidableEq, Repr

/-- A captured pass (R207, R216): the block's bytes, and the key and stream in force at issue (R192). -/
structure PassQ where
  block  : Bytes
  key    : Key128
  stream : BitVec 16
  codeOff : Nat
  deriving DecidableEq, Repr

/-- A partial trailer (R115). -/
structure Trailer where
  window : Int := 0
  fmt    : Nat := 0
  flags  : Nat := 0
  m      : Nat := 0
  n      : Nat := 0
  scaleA : BitVec 32 := 0
  scaleB : BitVec 32 := 0
  kfirst : Nat := 0
  kend   : Nat := 0
  turn   : BitVec 64 := 0
  deriving DecidableEq, Repr

/-- A leat operation in its queue (R219, R366): 0 LMOVE, 1 LSTREAM, 2 LWALK; the captured block, whether it has started, the
descriptors it read or made when it started, the units delivered, and whether it found poison where it located its first block (R284). -/
structure LeatOp where
  kind  : Nat
  block : Bytes
  codeOff : Nat
  started : Bool := false
  descs : List Desc := []
  done  : Nat := 0
  lost  : Bool := false
  deriving DecidableEq, Repr

/-- Where a hopper block came from: the operation, its unit, and the number of the block in that unit (R287). -/
structure HopSrc where
  op    : LeatOp
  unit  : Nat
  chunk : Nat
  deriving DecidableEq, Repr

/-- A delivered hopper block (R217): its 512 bytes, its poison (R254), the table slots with which it was expanded (R275), and where it came
from. -/
structure HopBlock where
  data   : Bytes
  poison : Bool := false
  tabs   : List Nat := []
  src    : List HopSrc := []
  deriving DecidableEq, Repr

/-- What a slot of an array does (R82, R367). -/
inductive SlotUse where
  | empty | preload | pass | landed | draining | abandoned
  deriving DecidableEq, Repr

/-- One output tile of an array (R82, R100, R124). Elements are keyed 64 × i + j. -/
structure TileSlot where
  use    : SlotUse := .empty
  pass   : Option PassQ := none
  acc    : Tab Acc := []
  satSet : List Nat := []
  window : Int := 0
  attempt : Nat := 0
  nextK  : Nat := 0
  flags  : Nat := 0
  /-- rows and columns marked non-finite (R57, R80) -/
  markA  : List Nat := []
  markB  : List Nat := []
  sumA   : Tab Int := []
  sumB   : Tab Int := []
  /-- operands in hopper layout (R217) -/
  hopA   : Bytes := []
  hopB   : Bytes := []
  /-- table slots with which streamed blocks of this pass were expanded (R275), and where the blocks of each side came from (R287) -/
  tabs   : List Nat := []
  srcsA  : List HopSrc := []
  srcsB  : List HopSrc := []
  fmtA   : Nat := 0
  fmtB   : Nat := 0
  zA     : Nat := 0
  zB     : Nat := 0
  scaleA : BitVec 32 := 0
  scaleB : BitVec 32 := 0
  poisoned : Bool := false
  /-- poison of the B operand alone, which a replay of its buffer takes over (R218) -/
  poisonB : Bool := false
  /-- the preload's flags and KFIRST (R115, R116) -/
  preFlags : Nat := 0
  preKfirst : Option Nat := none
  /-- the WINDOW of a Wide TILE or RETAIN source (R116) -/
  preWindow : Option Int := none
  /-- a preload term left ±LIM (R107) -/
  preOver : Bool := false
  /-- issue cycles spent on the step in progress of a 16-bit pass, 0 to 3 (R75) -/
  quarter : Nat := 0
  /-- streamed operands of a repeat are still to be replayed (R287) -/
  replay : Bool := false
  /-- the tile that a shared preload has shifted in for the next pass of this slot (R85) -/
  sharedPre : Bool := false
  /-- rows and trailer waiting to be written by the drain in progress -/
  outRows : List Bytes := []
  outTrailer : Option Trailer := none
  /-- the pass block whose drain is in progress, with its key and stream -/
  outPass : Option PassQ := none
  outPoison : Bool := false
  /-- the destination descriptor of a final drain, as read before the pass's first edge cycle (R216) -/
  dest   : Option Desc := none
  outDest : Option Desc := none
  /-- what the previous drain of this slot wrote (R86): its trailer, its rows and their poison, and the scratchpad address of the rows -/
  prevTrailer : Option Trailer := none
  prevRows : List Bytes := []
  prevPoison : Bool := false
  prevDest : Nat := 0
  deriving DecidableEq, Repr

/-- One matrix array (R73 to R99). -/
structure ArraySt where
  queue  : List PassQ := []
  slot0  : TileSlot := {}
  slot1  : TileSlot := {}
  next   : Bool := false
  /-- delivered hopper blocks not yet taken by a pass (R218) -/
  streamA : List HopBlock := []
  streamB : List HopBlock := []
  /-- the B operand of the latest pass that has landed: its blocks as one, and its format (R218) -/
  lastB  : Option (HopBlock × Nat) := none
  /-- the latest pass issued: K, the B format then in its descriptor, consecutive replays (R218) -/
  lastIssue : Option (Nat × Nat × Nat) := none
  counts : Tab Counter := []
  deriving DecidableEq, Repr

/-- The activity level of a physical array (R96). -/
structure Activity where
  level : Nat := 0
  gap   : Nat := 0
  deriving DecidableEq, Repr

/-- One gather-buffer entry (R133): a row of the core's scratchpad, valid bytes, and which of them are dirty. -/
structure GEntry where
  row   : Nat
  bytes : Tab Byte
  dirty : List Nat
  deriving DecidableEq, Repr

/-- A vector instruction as captured at issue (R207, R226). -/
structure VecOp where
  opc    : Nat
  word   : Word
  /-- scalar registers captured: s1, s2 and s3 of the V3 format, or sA, sB and sC -/
  sA     : Word := 0
  sB     : Word := 0
  sC     : Word := 0
  block  : Bytes := []
  vrange : Word
  vorg   : Word
  key    : Key128
  stream : BitVec 16
  codeOff : Nat
  deriving DecidableEq, Repr

/-- A remote operation in the window unit (R228, R397). -/
structure RemoteOp where
  block  : Bytes
  codeOff : Nat
  tag    : Nat := 0
  sent   : Bool := false
  retries : Nat := 0
  firstRetry : Option Nat := none
  waiting : Bool := false
  poison : Bool := false
  /-- GET_DATA parts received -/
  parts  : Nat := 0
  deriving DecidableEq, Repr

/-- Why a control core is stalled: the instruction word and the opcode, to be issued again (R206). -/
structure Stall where
  opc  : Nat
  word : Word
  deriving DecidableEq, Repr

/-- An LDM that has left the control core (R212): its register, address, size and sign extension; the DPA it reads, the codeword that
memory held there when it was issued, and whether it was poison. -/
structure Load where
  rd     : Nat
  va     : Nat
  size   : Nat
  sx     : Bool
  dpa    : Nat
  data   : Bytes
  poison : Bool
  codeOff : Nat
  deriving DecidableEq, Repr

/-- The engines and registers of one core (R205 to R237, R157 to R188). Keys of `tiles`: 4096 × t + 64 × i + j, of `masks`:
4096 × m + 64 × i + j. -/
structure CoreSt where
  owner  : Option (Nat × Nat) := none
  running : Bool := false
  regs   : Tab Word := []
  pc     : Nat := 0
  codeLen : Nat := 0
  handle : Word := 0
  karg   : Word := 0
  coreCount : Nat := 0
  amask  : BitVec 8 := 0
  awidth : Nat := 0
  accFlags : Nat := 0
  vrange : Word := 0x4000
  vorg   : Word := 0
  vflags : Nat := 0
  drawKey : Key128 := 0
  drawStream : BitVec 16 := 0
  trapVec : Word := 0
  trapPc : Word := 0
  trapCause : Word := 0
  inHandler : Bool := false
  tiles  : Tab Elem := []
  masks  : Tab Bool := []
  /-- register elements and mask rows with an error not yet found by a read (R186): keys of `tiles`, 65536 + 64 × m + i for
  mask rows; uncorrectable and correctable -/
  vbad   : List Nat := []
  vsoft  : List Nat := []
  gather : List GEntry := []
  vq     : List VecOp := []
  leat   : List LeatOp := []
  remotes : List RemoteOp := []
  arrays : Tab ArraySt := []
  /-- logical array index to physical array (R369) -/
  bind   : Tab Nat := []
  stall  : Option Stall := none
  /-- registers whose value is still to arrive: LDM loads, and summaries (rd, value) (R206, R174) -/
  loads  : List Load := []
  sums   : List (Nat × Word) := []
  /-- EXIT reached with this code; the kernel ends here once its operations are complete (R237) -/
  exiting : Option Nat := none
  /-- a precise fault has ended its issue: its earlier instructions complete (R230) -/
  draining : Bool := false
  /-- stall ticks of an access that waits for its slots (R146): 0 control, 1 leat, 2 vector, 3 window, 4 + a the next start of
  array a, 12 + a its drain, 20 the leat's streams -/
  stallTicks : Tab Nat := []
  /-- ticks for which the core has been deadlocked without a break (R147) -/
  deadTicks : Nat := 0
  /-- codewords of code in the instruction buffer, and 2 MiB pages whose translation is cached, by virtual address, oldest first (R234,
  R250) -/
  ibuf   : List Nat := []
  tlb    : List Nat := []
  /-- 4 KiB chunks of the leat's latest wide requests (R251) -/
  chunks : List Nat := []
  /-- folio walks noted (R304): (sid, layer, head, kind, folio, list address), in issue order -/
  walks  : List (Nat × Nat × Nat × Nat × Nat × Nat) := []
  deriving DecidableEq, Repr

/-- A logical core of a context (R361): its scratchpad and where it is. Scratchpad keys are the logical addresses of R125. -/
structure LCore where
  /-- the physical core on which its shelves are resident -/
  home   : Option Nat := none
  /-- physical shelves of logical shelves 0 to S − 1 -/
  shelves : List Nat := []
  rows   : List Host.Cell := []
  poison : List Nat := []
  /-- words of 8 bytes, by logical address / 8, with an uncorrectable, or a correctable, error not yet found by a read (R139) -/
  bad    : List Nat := []
  soft   : List Nat := []
  slots  : Tab Slot := []
  /-- fills (true) and drains of accesses that have passed their checks, whose slot's state does not allow them yet (R141), oldest first -/
  owed   : List (Nat × Bool) := []
  saved  : Option CoreSt := none
  deriving DecidableEq, Repr

/-! ## Weights -/

/-- A table slot's contents (R274). -/
structure CodeTable where
  fmt  : Nat
  tgen : Nat
  lens : List Nat
  deriving DecidableEq, Repr

/-- States of a generation (R291). -/
inductive GenState where
  | loading | incomplete | verifying | ready | held
  deriving DecidableEq, Repr

/-- A tensor of a manifest (R266). -/
structure Tensor where
  layer : Nat
  fmt   : Nat
  zp    : Nat
  k     : Nat
  n     : Nat
  scale : BitVec 32
  hdrOff : Nat
  runOff : Nat
  payOff : Nat
  payBytes : Nat
  deriving DecidableEq, Repr

/-- A manifest as read (R265 to R267, R272). -/
structure Manifest where
  encrypted : Bool
  shardLog2 : Nat
  layers : Nat
  imageBytes : Nat
  kvHeads : Nat
  headWidth : Nat
  kvFmt  : Nat
  kvZp   : Nat
  kvScale : BitVec 32
  tables : List (Nat × CodeTable)
  tensors : List Tensor
  /-- digest, IV, tag -/
  shards : List (Digest × Bytes × Bytes)
  deriving DecidableEq, Repr

/-- A generation's contents, private or a reference collection's (R264, R276, R297). The image is held by byte offset. -/
structure GenBody where
  digest : Digest := 0
  manifest : Option Manifest := none
  st     : GenState := .loading
  /-- outcome of each shard (R277), plus 1; unlisted: not yet read -/
  shards : Tab Nat := []
  /-- the container's image as read, while it is loaded, and for a generation expanded at load as long as it stays: what a Resume
  expands from -/
  image  : List Host.Cell := []
  atUse  : Bool := false
  width  : Nat := 64
  slot   : Nat := 0
  /-- page of each 2 MiB of the stored image: of device memory, or beyond it of the slower tier -/
  pages  : Tab Nat := []
  /-- where the bytes of each shard are stored: (shard, stored offset, length) -/
  spans  : List (Nat × Nat × Nat) := []
  /-- layers in the slower tier; those whose prefetch copy is complete (true) or running, a layer of even number in the first half of the
  buffer and one of odd number in the second; and the pages of the buffer (R289, R290) -/
  tierLayers : List Nat := []
  prefetch : List (Nat × Bool) := []
  buffer : List Nat := []
  /-- shards found bad or poisoned since the latest boundary (R280, R298) -/
  badShards : List Nat := []
  /-- digests computed over expanded bytes at load, and the shard that the digest scrubber takes next (R280) -/
  expanded : Tab Digest := []
  scrubNext : Nat := 0
  deriving DecidableEq, Repr

/-- A generation of a context: its own body, or a mapped reference collection (R276, R297). -/
structure Gen where
  body : GenBody := {}
  ref  : Option Nat := none
  loaded : Bool := true
  /-- where it is mapped: one of 32 places (log entry 17) -/
  va   : Nat := 0
  deriving DecidableEq, Repr

/-- LOAD_GEN in progress (R277). -/
structure LoadRun where
  gen    : Nat
  ref    : Option Nat := none
  digest : Digest
  status : Nat
  manifestSrc : Nat × Nat := (0, 0)
  sources : List (Nat × Nat)
  budget : Nat
  tier   : List (Nat × Nat)
  atUse  : Bool
  resume : Bool
  slot   : Nat := 0
  key    : Option Bytes := none
  manifestBytes : Nat := 0
  manifestDone : Bool := false
  deriving DecidableEq, Repr

/-- A reference collection (R297 to R299, R512). -/
structure Coll where
  part   : Nat
  atUse  : Bool
  width  : Nat
  body   : GenBody := {}
  replica : Bool := false
  replicaPages : Tab Nat := []
  wantReplica : Bool := false
  backing : List (Nat × Nat) := []
  slot   : Nat := 0
  encrypted : Bool := false
  /-- READY again at the next boundary (R299) -/
  readyNext : Bool := false
  /-- management's load of it in progress (R512) -/
  load   : Option LoadRun := none
  deriving DecidableEq, Repr

/-- A catalogue entry (R301), with the folio's allocation number (R516). -/
structure Folio where
  base   : Nat := 0
  scale  : BitVec 32 := 0
  zp     : Nat := 0
  filled : Nat := 0
  spilled : Bool := false
  poisoned : Bool := false
  fixed  : Bool := false
  integrity : Word := 0
  alloc  : Nat := 0
  /-- pool folio number, where resident or returning -/
  place  : Nat := 0
  /-- place in the spill region, where spilled -/
  spillAt : Nat := 0
  /-- which 32-byte place of the context's catalogue pages holds this entry -/
  entryAt : Nat := 0
  deriving DecidableEq, Repr

/-- A sequence (R293, R300, R301). Catalogue key: ((layer × 256 + head) × 2 + kind) × 65536 + folio. -/
structure Seq where
  gen    : Nat
  len    : Nat := 0
  key    : Key128
  cat    : Tab Folio := []
  lastStep : BitVec 64 := 0
  deriving DecidableEq, Repr

/-! ## Rings and commands -/

/-- A completion record (R347), PHASE and CONS being added when it is written. -/
structure Cpl where
  handle : Word
  status : Nat
  late   : Bool := false
  acc    : Nat := 0
  exit   : Nat := 0
  detail : Nat := 0
  turnRel : BitVec 64 := 0
  clipMax : Nat := 0
  clipTag : Nat := 0
  clipAll : Nat := 0
  parts  : Nat := 1
  failed : Nat := 0
  partMap : Word := 0
  value  : Word := 0
  irq    : Bool := false
  /-- the command was released: TURN_REL is its release turn, not TURN_DONE -/
  rel    : Bool := false
  deriving DecidableEq, Repr

/-- A ring (R326 to R333, R353 to R355). -/
structure Ring where
  func   : Nat
  sqBase : Nat
  cqBase : Nat
  dbAddr : Nat
  sqLog  : Nat
  cqLog  : Nat
  mmio   : Bool
  irqCount : Nat
  vector : Nat
  irqTimer : Nat
  vqp    : Nat
  prod   : BitVec 32 := 0
  cons   : BitVec 32 := 0
  /-- descriptors fetched: the next command sequence number (R335) -/
  fetched : Nat := 0
  cqHead : BitVec 16 := 0
  written : Nat := 0
  /-- records ready, oldest first; and since when one has been held for want of a free slot (R355) -/
  ready  : List Cpl := []
  fullSince : Option Nat := none
  unannounced : Nat := 0
  stopped : Bool := false
  retrying : Bool := false
  enabled : Bool := true
  /-- the doorbell word last accepted; the line is held; snooped away without a change (R312 to R314) -/
  word   : Word := 0
  lineHeld : Bool := false
  /-- times, within 1 ms, of snoops that found the word unchanged, and the word last read (R313) -/
  snoops : List Nat := []
  seen   : Word := 0
  degraded : Bool := false
  /-- completed handles of this ring: (sequence number, status) of the last 4096 and more (R337) -/
  doneLog : List (Nat × Nat) := []
  deriving DecidableEq, Repr

/-- One entry of a STEP's list (R343). -/
structure StepEntry where
  sid    : Nat
  append : Nat
  len    : Nat := 0
  /-- failure status, if the entry has failed -/
  failed : Option Nat := none
  /-- folios allocated at release: (catalogue key) -/
  fresh  : List Nat := []
  deriving DecidableEq, Repr

/-- The kernel run of a kernel command (R233 to R237). -/
structure KRun where
  handle : Word
  isStep : Bool
  image  : Nat
  karg   : Nat
  drawKey : Key128
  codeOff : Nat
  codeLen : Nat
  entry  : Nat
  rodataOff : Nat
  rodataLen : Nat
  rodataDst : Nat
  args   : List Word
  gen    : Nat := 0
  out    : Nat := 0
  result : Nat := 0
  entries : List StepEntry := []
  started : Bool := false
  /-- logical cores whose kernel has ended, with their exit codes -/
  ended  : List (Nat × Nat) := []
  stopped : Bool := false
  imageDigest : Digest := 0
  argDigest : Digest := 0
  amin   : Nat := 0
  govAtRel : Nat := 0
  /-- spill copies and returns its release caused, not yet finished (R374) -/
  spills : List Nat := []
  /-- generation and layer of the tensors that it has streamed (R290) -/
  streamed : List (Nat × Nat) := []
  deriving DecidableEq, Repr

/-- One PUT of a collective (R426, R433): its destination rank, region, offset, source, length, and its final status. -/
structure CollPut where
  tag    : Nat
  rank   : Nat
  region : Nat
  off    : Nat
  data   : Bytes
  status : Option Nat := none
  repeats : Nat := 0
  dropped : Bool := false
  /-- the rank's part this PUT belongs to fails with it (data only, not count entries) -/
  isData : Bool := true
  /-- its source is kept from compression (R398); its source was poisoned (R407) -/
  secret : Bool := false
  poison : Bool := false
  deriving DecidableEq, Repr

/-- A buffer entry of a collective (R417). -/
structure CollBuf where
  addr : Nat := 0
  len  : Nat := 0
  kind : Nat := 0
  core : Nat := 0
  deriving DecidableEq, Repr

/-- A collective (R416 to R437). -/
structure CollRun where
  group  : Nat
  cseq   : Nat
  members : List (Nat × Nat)
  rank   : Nat
  wbase  : Nat
  depth  : Nat
  op     : Nat
  dtype  : Nat
  redop  : Nat
  root   : Nat
  window : Int
  stallTurns : Nat
  limitTurns : Nat
  src    : CollBuf
  dst    : CollBuf
  work   : CollBuf
  countsAt : Nat
  drawKey : Key128
  orgR   : Nat
  orgC   : Nat
  check  : Nat
  winOpen : Bool := false
  released : Bool := false
  /-- count table bytes received -/
  table  : List Host.Cell := []
  tableGot : List Nat := []
  counts : List (List Nat) := []
  checked : Bool := false
  /-- PUTs received whole: region, sending rank, offset, length -/
  recv   : List (Nat × Nat × Nat × Nat) := []
  puts   : List CollPut := []
  reduced : Bool := false
  stall  : Nat := 0
  /-- the stall count that was reported last (R432) -/
  reported : Nat := 0
  /-- the nodes of members that have been declared down since its fetch, or were at it (R436) -/
  lost   : List Nat := []
  heard  : Bool := false
  short  : Bool := false
  /-- the page reserved for the count table (R421) -/
  page   : Nat := 0
  /-- its own count entry has been sent -/
  begun  : Bool := false
  deriving DecidableEq, Repr

/-- The work of a command beyond its table entry. -/
inductive Work where
  | none
  | load (l : LoadRun)
  | coll (c : CollRun)
  | scrubbing (pages : List Nat)
  | table (slot : Nat) (t : CodeTable)
  deriving DecidableEq, Repr

/-- Where a command of the table stands. -/
inductive CmdState where
  | waiting | released | ready
  deriving DecidableEq, Repr

/-- A command of a command table (R334 to R340). -/
structure Cmd where
  handle : Word
  ring   : RingId
  target : Nat
  op     : Nat
  flags  : Nat
  turn   : BitVec 64
  deadline : Option (BitVec 64)
  deps   : List Word
  body   : Bytes
  order  : Nat
  st     : CmdState := .waiting
  fetchTurn : BitVec 64 := 0
  turnRel : BitVec 64 := 0
  late   : Bool := false
  acc    : Nat := 0
  exit   : Nat := 0
  detail : Nat := 0
  /-- a failure that applies to the whole command (R349, R469) -/
  whole  : Option Nat := none
  nparts : Nat := 1
  /-- failed parts and their statuses -/
  failed : Tab Nat := []
  stats  : Tab Stat := []
  value  : Word := 0
  work   : Work := .none
  keyMismatch : Bool := false
  accSat : Bool := false
  /-- order step 8 of the latest boundary found the command due, its release being still to come (R338) -/
  due    : Bool := false
  /-- quantiser writes by row: (address of the row, tag, written, clipped) (R71) -/
  rowStats : List (Nat × Nat × Nat × Nat) := []
  /-- counted as held at release for ledger room (R528, R542) -/
  roomWait : Bool := false
  deriving DecidableEq, Repr

/-! ## Contexts -/

/-- Context states (R360, R487). -/
inductive CtxState where
  | closed | opening | idle | waiting | running | closing | broken | recoverable | scrubbing
  deriving DecidableEq, Repr

/-- A window of a context (R150, R404, R422, R423). -/
structure Window where
  kind   : Nat
  ops    : Nat
  core   : Nat
  base   : Nat
  bytes  : Nat
  writers : List (Nat × Nat)
  closing : Option Word := none
  deriving DecidableEq, Repr

/-- A ledger record (R531 to R535): the common fields and the body's 144 bytes. -/
structure LedRec where
  recno  : Nat
  turn   : BitVec 64
  phase  : BitVec 32
  kind   : Nat
  ctx    : Nat
  func   : Nat
  width  : Nat
  modes  : Nat
  rflags : Nat
  status : Nat
  cores  : Nat
  amin   : Nat
  handle : Word
  prev   : Digest
  genDigest : Digest
  fwDigest : Digest
  body   : Bytes
  deriving DecidableEq, Repr

/-- A ledger (R526 to R536). -/
structure Ledger where
  ctx    : Nat := 0
  func   : Nat := 0
  openTurn : BitVec 64 := 0
  records : List LedRec := []
  next   : Nat := 0
  chain  : Digest := 0
  lastSeal : Option Nat := none
  sigs   : List (Nat × Bytes) := []
  /-- RECNOs not yet read by F0 or management (R528): every record from here on is unread but those listed -/
  readSet : List Nat := []
  lostSince : Nat := 0
  autoSeal : Bool := false
  deriving DecidableEq, Repr

/-- What OPEN_CONTEXT asked for (R342, R357). -/
structure OpenReq where
  func   : Nat := 0
  modes  : Nat := 0
  width  : Nat := 0
  shelves : Nat := 1
  cores  : Nat := 1
  qmask  : Nat := 0
  ringMask : Nat := 0
  deadline : Nat := 200000
  pool   : Nat := 0
  deriving DecidableEq, Repr

/-- A context (R356 to R380). -/
structure Ctx where
  st     : CtxState := .closed
  req    : OpenReq := {}
  /-- a ring setup in progress: the headers that OPEN_CONTEXT read, to be set up at the first placement -/
  opening : Option (Word × List (Nat × Ring)) := none
  adopt  : Bool := false
  home   : Nat := 0
  width  : Nat := 0
  uniformAtOpen : Bool := false
  lcores : Tab LCore := []
  /-- physical core of each logical core while RUNNING -/
  placed : List Nat := []
  waitStart : BitVec 64 := 0
  runStart : BitVec 64 := 0
  lastRun : BitVec 64 := 0
  /-- it has been RUNNING in this turn (R380) -/
  ran    : Bool := false
  ptL0   : Tab Pte := []
  ptL1   : Tab Pte := []
  ptL2   : Tab Pte := []
  /-- the tables by their numbers (0 the root, 1 + i at level 1, 513 + i at level 2), each as one of the 4 KiB places of the pages that
  follow; and the pages of the catalogues (R248, R301, R601) -/
  tables : Tab Nat := []
  tablePages : List Nat := []
  catPages : List Nat := []
  poolVa : Nat := 0
  slots  : Tab CodeTable := []
  gens   : Tab Gen := []
  current : Option Nat := none
  seqs   : Tab Seq := []
  nextSid : Nat := 1
  allocNo : Nat := 0
  freeFolios : List Nat := []
  stats  : Tab Stat := []
  windows : Tab Window := []
  /-- tombstones of R423 by window number: group, completed CSEQ, and whether its own buffers were too short (R425) -/
  tombs  : Tab (Nat × Nat × Bool) := []
  kernels : List KRun := []
  ledger : Ledger := {}
  slotKey : Nat := 0
  /-- a reset of this context in progress: handles whose records are still to be written (R481) -/
  resetting : Option (List Word) := none
  /-- CLOSE_CONTEXT waiting or scrubbing: its handle and scrub kind (R345, R379, R523) -/
  closeCmd : Option Word := none
  scrubKind : Nat := 0
  cancelled : Nat := 0
  /-- an FLR in keeper mode has marked it: it is closed after exit (R491) -/
  marked : Bool := false
  /-- its CLOSE_CONTEXT went with its ring in a warm reset or an FLR of F0, and is completed no more (R485, R487) -/
  orphan : Bool := false
  /-- the warm reset in progress has made it recoverable (R487) -/
  newly  : Bool := false
  deriving DecidableEq, Repr

/-! ## Fabric -/

/-- Port states (R385). -/
inductive PortState where
  | disabled | dark | training | negotiating | authenticating | up | recovering
  deriving DecidableEq, Repr

/-- An optical port (R382 to R395). -/
structure Port where
  st     : PortState := .disabled
  lanes  : Nat := 0
  delay  : Nat := 0
  version : Nat := 0
  partner : Nat := 0
  partnerDev : BitVec 64 := 0
  /-- held DARK for 10 s (R385, R387) -/
  darkHeld : Bool := false
  authed : Bool := false
  authStep : Nat := 0
  /-- the master secret of R521 while it is kept -/
  master : Option Digest := none
  peerNonce : Bytes := []
  txSeq  : Nat := 0
  rxNext : Nat := 0
  /-- unacknowledged DATA flits (R394) -/
  retry  : List (Nat × List Msg) := []
  waitQ  : List Msg := []
  nakRun : Nat := 0
  nakSeq : Nat := 0
  nakOut : Bool := false
  /-- NAKs received in a row for one SEQ (R394) -/
  nakRx  : Nat := 0
  nakRxSeq : Nat := 0
  epochTx : Nat := 0
  epochRx : Nat := 0
  txCount : Nat := 0
  /-- credit units held for REQ, RSP and FM, and the partner's advertised amounts (R393) -/
  credits : List Nat := []
  credMax : List Nat := []
  /-- units of received messages not yet taken, by channel -/
  rxUsed : List Nat := [0, 0, 0]
  /-- messages received and not yet taken, oldest first -/
  inbox  : List Msg := []
  stalled : Bool := false
  gcmFails : List Nat := []
  malformed : List Nat := []
  rejects : Nat := 0
  abusers : List Nat := []
  deriving DecidableEq, Repr

/-- An operation this Volud has sent and not yet finished (R397, R405, R406): the core and its place, or a collective's PUT. -/
structure OutOp where
  tag    : Nat
  ctx    : Nat
  lcore  : Nat
  node   : Nat
  op     : Nat := 0
  len    : Nat := 0
  port   : Option Nat := none
  coll   : Option Word := none
  deriving DecidableEq, Repr

/-- An operation accepted at a window and not finished (R397, R408). -/
structure InOp where
  srcNode : Nat
  srcCtx  : Nat
  tag    : Nat
  ctx    : Nat
  window : Nat
  via    : Via
  hdr    : MsgHdr
  got    : Nat
  poison : Bool := false
  deriving DecidableEq, Repr

/-- A report to the fabric manager (R410). -/
structure FmReport where
  kind   : Nat
  node   : Nat
  ctx    : Nat
  turn   : BitVec 64
  detail : Bytes
  deriving DecidableEq, Repr

/-- The optical fabric and the window units' shared state (R382 to R415). -/
structure Fabric where
  ports  : Tab Port := []
  outOps : List OutOp := []
  inOps  : List InOp := []
  nextTag : Nat := 0
  /-- messages in transit on the hub (R399), oldest first -/
  hubQ   : List Msg := []
  reports : List FmReport := []
  /-- nodes down, and PEER_DOWN notices refused beyond 1 024 (R411) -/
  down   : List Nat := []
  downRefused : Counter := {}
  /-- REMOTE_VIOLATION raised this turn: (context, window, node, check) (R409) -/
  violations : List (Nat × Nat × Nat × Nat) := []
  laserFault : Bool := false
  deriving DecidableEq, Repr

/-! ## Host link -/

/-- Host link states (R308, R309, R324). -/
inductive LinkState where
  | down | failed | ioOnly | full
  deriving DecidableEq, Repr

/-- The IDE state of the host link (R323). -/
inductive IdeState where
  | off | secure | insecure
  deriving DecidableEq, Repr

/-- The host link and its agents (R308 to R325, R353). -/
structure HostLink where
  link   : LinkState := .down
  width  : Nat := 0
  rate   : Nat := 0
  ide    : IdeState := .off
  viral  : Bool := false
  /-- configuration space loaded (R552) -/
  config : Bool := false
  /-- CXL.cache enabled on F0; functions with ATS enabled; VFs enabled -/
  cache  : Bool := false
  ats    : List Nat := []
  vfs    : Nat := 0
  /-- bases of F0's BAR0, BAR2 and BAR4 and of the VFs' BAR0, and whether F0, and the VFs, answer memory requests (R311) -/
  bars   : Tab Nat := []
  vfBar  : Nat := 0
  memOn  : Bool := false
  vfMem  : Bool := false
  /-- CXL.mem enabled on F0; the HDM decoder's base, and whether it is committed (R310, R319) -/
  memEnable : Bool := false
  hdmBase : Nat := 0
  hdmOn  : Bool := false
  /-- AER status bits that are set, uncorrectable and correctable: key 32 × function + bit (R310, R325) -/
  aerUnc : List Nat := []
  aerCor : List Nat := []
  /-- translations cached, at most 4096: (function, 4 KiB page of its address space) (R315) -/
  atc    : List (Nat × Nat) := []
  frames : Tab Word := []
  /-- lines the host may cache (R322), oldest first -/
  snoop  : List Nat := []
  denied : List (Nat × Nat) := []
  /-- MSI-X vectors that the host has unmasked, and pending bits: key 2048 × function + vector; every vector is masked at reset, as PCI
  Express has it (log entry 28) -/
  unmasked : List Nat := []
  pendingMsix : List Nat := []
  /-- functions with MSI-X enabled, and those with every vector masked; the address and data of the entries: byte b of entry v of function f at
  16 × (2048 × f + v) + b (R310, R311) -/
  msixOn : List Nat := []
  msixMask : List Nat := []
  msixTable : Tab Byte := []
  holdCpl : Bool := false
  spdmDoe : Nat := 0
  spdmNet : Nat := 0
  session : Bool := false
  handshake : Bool := false
  deriving DecidableEq, Repr

/-! ## Security, firmware, board -/

/-- A weight key (R507, R508). -/
structure WeightKey where
  digest : Digest
  key    : Bytes
  funcs  : Word
  expires : BitVec 64
  refOk  : Bool
  deriving DecidableEq, Repr

/-- A scrub record (R524) without its signature, which is a function of the rest and AK. -/
structure ScrubRec where
  recno  : Nat
  turn   : BitVec 64
  kind   : Nat
  ctx    : Nat
  func   : Nat
  slot   : Nat
  sflags : Nat
  pages  : List Nat
  shelves : Nat
  handle : Word
  /-- which AK signs it -/
  ak     : Nat
  deriving DecidableEq, Repr

/-- The security processor and ownership (R495 to R525). -/
structure Security where
  akGen  : Nat := 0
  akExists : Bool := false
  owned  : Bool := false
  anchors : List Nat := []
  idents : List (Nat × List Role) := []
  allow  : List (BitVec 64 × Digest) := []
  wkeys  : List WeightKey := []
  /-- memory slots in use: slot, holder (0 context x, 1 generation of x, 2 collection) -/
  mslots : Tab (Nat × Nat) := []
  /-- IDE keys by link stream: 0 CXL.io, 1 CXL.cachemem (R522) -/
  ideKeys : Tab Bytes := []
  /-- failures per source address: (source, time) and blocked sources (R506) -/
  authFails : List (Nat × Nat) := []
  blocked : List Nat := []
  failRaised : List Nat := []
  subs   : Nat := 0
  streams : Nat := 0
  scrubs : List ScrubRec := []
  scrubNo : Nat := 0
  etag   : Nat := 0
  deriving DecidableEq, Repr

/-- A firmware image as the header gives it (R545), and whether it verifies (R546). -/
structure Image where
  digest : Digest := 0
  major  : Nat := 1
  minor  : Nat := 0
  svn    : Nat := 0
  build  : Word := 0
  ok     : Bool := false
  deriving DecidableEq, Repr

/-- An activation accepted and not done (R556). -/
structure Activation where
  turn   : Option Nat
  copied : Bool := false
  deriving DecidableEq, Repr

/-- What one copy of the field area holds (R559). -/
structure FieldArea where
  turn   : TurnParams := {}
  params : Params := {}
  net    : NetParams := {}
  levelMode : Bool := false
  capM   : Nat := 1600
  capB   : Nat := 0
  offsets : Tab Int := []
  owned  : Bool := false
  anchors : List Nat := []
  idents : List (Nat × List Role) := []
  allow  : List (BitVec 64 × Digest) := []
  cols   : Tab (List Nat) := []
  lanes  : Tab (List Nat) := []
  withdrawn : List Nat := []
  retired : List Nat := []
  deriving DecidableEq, Repr

/-- The factory area of the flash, write-protected since the factory test (R544, R558): whether it verifies, and what its records say. -/
structure Factory where
  ok     : Bool := true
  device : BitVec 64 := 0
  claimDigest : Digest := 0
  pFloor : Nat := 450
  pRest  : Nat := 120
  pKeep  : Nat := 70
  levelCeil : Nat := 1800
  columns : Tab (List Nat) := []
  lanes  : Tab (List Nat) := []
  vtable : Tab (Nat × Nat) := []
  /-- the activity coefficients by operating point and event, 64 × k + 4 × e, in 1/16 pJ, and leakage by domain, 16 × d + 2 × k, in 10 mW
  (R443, R460) -/
  coef   : Tab Nat := []
  leak   : Tab Nat := []
  /-- records held and read by no meaning (log entry 109): the management port's address (R501), the certificate and the
  sealed key of the device identity, the memory training seeds by channel (R239), optics, and sensor offsets (R459) -/
  mac    : BitVec 48 := 0
  dikCert : Bytes := []
  dikSealed : Bytes := []
  memTrain : Tab Bytes := []
  optics : Bytes := []
  sensors : Bytes := []
  deriving DecidableEq, Repr

/-- Flash, fuses and start-up (R544 to R561). -/
structure Firmware where
  image  : Image := {}
  running : Image := {}
  staged : Option Image := none
  xferOpen : Bool := false
  xfer   : Bytes := []
  activation : Option Activation := none
  activated : Bool := false
  svnFloor : Nat := 0
  /-- the current copy of the field area, its sequence number, changes collected and not yet written, and the requests that are
  answered once they are (R559) -/
  field  : FieldArea := {}
  fieldSeq : Nat := 0
  fieldDirty : Bool := false
  answers : Nat := 0
  retests : List TestUnit := []
  deriving DecidableEq, Repr

/-- Field lists and error histories of units (R89, R92, R184, R186, R482). -/
structure Units where
  fieldCols : Tab (List Nat) := []
  fieldLanes : Tab (List Nat) := []
  withdrawn : List Nat := []
  /-- parity errors of the last 24 h: (array, column or 0xFFFF, time) -/
  parity : List (Nat × Nat × Nat) := []
  /-- lane uncorrectable errors of the last 24 h: (core, lane, time) -/
  laneUe : List (Nat × Nat × Nat) := []
  hangs  : List (Nat × Nat) := []
  /-- arrays that must be tested at their next idle slot (R92) -/
  testDue : List Nat := []
  activity : Tab Activity := []
  /-- array granted last in each quadrant in the previous interval (R97), and one more than the number in this turn of the latest interval
  that granted a change there (R96) -/
  lastGrant : Tab Nat := []
  interval : Tab Nat := []
  /-- when every unit was tested last, and each unit since: arrays by number, lanes of core c as 1024 + c (R92, R186) -/
  testedAll : Nat := 0
  tested : Tab Nat := []
  /-- contexts that lose the use of an array, or of a core's lanes, at the end of the step they run: (context, unit as above) (R93) -/
  narrowing : List (Nat × Nat) := []
  /-- additions to the field lists that take effect at the next boundary (R93), by array and by core -/
  pendCols : Tab (List Nat) := []
  pendLanes : Tab (List Nat) := []
  deriving DecidableEq, Repr

/-- Start-up stages (R551), with the unpowered module before them. -/
inductive Stage where
  | off | rom | recovery | hub | memory | cores | ready | keeper | tripped
  deriving DecidableEq, Repr

/-- Board, power domains, reset and keeper state (R22 to R28, R486 to R492, R569). -/
structure Board where
  stage   : Stage := .off
  /-- powered domains in the order of R443 -/
  domains : BitVec 46 := 0
  faulted : List Nat := []
  resetAsserted : Bool := false
  inputBad : Bool := false
  keeper  : List KeeperCause := []
  dieCriticals : List Nat := []
  /-- management has ordered the exit from a keeper cause that needs it -/
  mgmtExit : Bool := false
  /-- cause of the warm reset in progress, and of the latest one (R486) -/
  warm    : Option Nat := none
  warmCause : Nat := 0
  hbSeen  : Bool := false
  hbAge   : Tab Nat := []
  hbLate  : List Nat := []
  linkDownCount : Bool := false
  deriving DecidableEq, Repr

/-- The setup registers that hold state of their own (R584 to R597). -/
structure Regs where
  hostCapLock : Bool := false
  errcap  : Nat := 0
  errFirst : Word := 0
  errTurn : BitVec 64 := 0
  adminHdr : Word := 0
  adminEnable : Bool := false
  /-- ENABLE = 1 written before READY (R552), with the header read then -/
  adminHeld : Option (Option Bytes) := none
  treadSel : Word := 0
  treadLedger : Word := 0
  treadState : Nat := 0
  treadLen : Nat := 0
  treadData : Bytes := []
  deriving DecidableEq, Repr

/-! ## Outputs -/

/-- What the block sends outside in answer to the latest command. -/
inductive Out where
  | data (d : Bytes) (poison : Bool)
  | value (w : Word)
  | unsupported
  | retryStatus
  | snoopResponse (valid : Bool)
  | invalidate (line : Nat)
  | atsDone (f : Nat)
  /-- a message of a function's vector: its entry's data, written to its entry's address (R311, R353) -/
  | msix (f v : Nat) (addr : Word) (data : Nat)
  /-- an error reported by AER: the function and the status bit (R325) -/
  | aer (f bit : Nat)
  | mark (p : Nat) (m : Mark)
  | send (p : Nat) (m : Msg)
  | hub (m : Msg)
  | nak (p ack : Nat)
  | resend (p seq : Nat)
  | linkFlit (p : Nat) (kind : Nat)
  /-- a PTP Delay_Req message of the selected domain (R47) -/
  | delayReq (domain : Nat)
  | burst (p : Nat)
  | hello (p : Nat)
  | retrainHost
  | mailbox (code : Nat) (d : Bytes)
  | spdm (code : Nat) (d : Bytes)
  | http (code : Nat) (d : Bytes)
  | fm (r : FmReport)
  /-- a record for the subscribers of the Redfish event service (R506) -/
  | redfish (recno : Nat)
  | rdShared (r : RingId)
  /-- reads and writes of host memory: the function, the address and the bytes; over CXL.cache, or over CXL.io, translated or not (R315,
  R316) -/
  | rdCurr (f a n : Nat)
  | wrCur (f a n : Nat)
  | ioRead (f a n : Nat) (translated : Bool)
  | ioWrite (f a n : Nat) (translated : Bool)
  deriving DecidableEq, Repr

/-! ## The whole -/

/-- The state of the block. -/
structure State where
  /-- ticks of 10 ns since HM came up: the model's clock for the 24-hour and 60-second rules -/
  now     : Nat := 0
  turn    : TurnUnit := {}
  params  : Params := {}
  net     : NetParams := {}
  /-- management changes waiting: (turn named or 0, change), in the order received (R505) -/
  sched   : List (Nat × Change) := []
  gov     : Governor := {}
  ev      : Events := {}
  mem     : Mem := {}
  /-- what the block has written to host memory: key function × 2^64 + address -/
  hostMem : List Host.Cell := []
  cores   : Tab CoreSt := []
  ctxs    : Tab Ctx := []
  /-- rings: key 16 × context + ring; the admin ring has key 4096 -/
  rings   : Tab Ring := []
  /-- commands fetched and not completed, in fetch order -/
  cmds    : List Cmd := []
  cmdNo   : Nat := 0
  colls   : Tab Coll := []
  closedLedgers : List Ledger := []
  fabric  : Fabric := {}
  host    : HostLink := {}
  sec     : Security := {}
  factory : Factory := {}
  fw      : Firmware := {}
  units   : Units := {}
  board   : Board := {}
  regs    : Regs := {}
  /-- telemetry counters by address (R598) -/
  counters : Tab Counter := []
  /-- a context's counters, key 1024 × context + counter number of QUERY WHAT 0 (R346) -/
  ctxCounters : Tab Counter := []
  /-- the model's own count of free values taken (see Config) -/
  fresh   : Nat := 0
  /-- what the latest command sent outside -/
  out     : List Out := []
  /-- commands waiting, first in, first out -/
  pending : List Instr := []
  deriving DecidableEq, Repr

/-- The module with no input applied (01_module_architecture: nothing on it is powered). -/
def State.reset : State := {}

end Sys2Proof.Machine
end

