-- ==== Sys2Proof/Machine/Clock.lean ====
section
/-! DEFINITION. The states in which time passes for the turn unit (R33, R38). -/

namespace Sys2Proof.Machine

/-- Does the turn unit produce boundaries, so that the phase counts (R33, R38)? -/
def TurnState.counts : TurnState → Bool
  | .unset => false
  | .locking => false
  | .locked => true
  | .free => true
  | .holdover => true
  | .lost => true

/-- The turn unit in HOLDOVER, having lost its source (R38, R50). -/
def TurnUnit.hold (u : TurnUnit) : TurnUnit := { u with st := .holdover, held := 0, silent := 0, followed := none }

end Sys2Proof.Machine
end

