-- ==== Sys2Proof/Machine/Tables.lean ====
section
/-! DEFINITION. The operations over sparse tables (`Tab`) and byte maps (`List Host.Cell`): each keeps the canonical form
(keys strictly rising; no entry equal to what an unlisted key reads as). -/

namespace Sys2Proof.Machine

/-- The entry listed at a key. -/
def Tab.opt {α : Type} (t : List (Nat × α)) (k : Nat) : Option α :=
  match t with
  | [] => none
  | (a, v) :: r => if a = k then some v else Tab.opt r k

/-- What a key reads as, unlisted keys reading as `d`. -/
def Tab.look {α : Type} (t : List (Nat × α)) (d : α) (k : Nat) : α := (Tab.opt t k).getD d

/-- Insert or replace an entry, keeping the keys rising. -/
def Tab.ins {α : Type} (t : List (Nat × α)) (k : Nat) (v : α) : List (Nat × α) :=
  match t with
  | [] => [(k, v)]
  | (a, u) :: r => if k < a then (k, v) :: (a, u) :: r else if a = k then (k, v) :: r else (a, u) :: Tab.ins r k v

/-- Remove an entry. -/
def Tab.del {α : Type} (t : List (Nat × α)) (k : Nat) : List (Nat × α) := t.filter fun e => e.1 != k

/-- Set what a key reads as: the default removes the entry. -/
def Tab.put {α : Type} [DecidableEq α] (t : List (Nat × α)) (d : α) (k : Nat) (v : α) : List (Nat × α) :=
  if v = d then Tab.del t k else Tab.ins t k v

/-- Change what a key reads as. -/
def Tab.upd {α : Type} [DecidableEq α] (t : List (Nat × α)) (d : α) (k : Nat) (f : α → α) : List (Nat × α) :=
  Tab.put t d k (f (Tab.look t d k))

/-- Change a listed entry; an unlisted key stays unlisted. -/
def Tab.change {α : Type} (t : List (Nat × α)) (k : Nat) (f : α → α) : List (Nat × α) :=
  t.map fun e => if e.1 = k then (e.1, f e.2) else e

/-- Entries of the keys from `base` up, in order, leaving out those equal to the default. -/
def Tab.run {α : Type} [DecidableEq α] (d : α) (base : Nat) : List α → List (Nat × α)
  | [] => []
  | v :: r => if v = d then Tab.run d (base + 1) r else (base, v) :: Tab.run d (base + 1) r

/-- Set what the keys from `base` up read as, one for each element of the list. -/
def Tab.fill {α : Type} [DecidableEq α] (t : List (Nat × α)) (d : α) (base : Nat) (l : List α) : List (Nat × α) :=
  (t.filter fun e => e.1 < base) ++ Tab.run d base l ++ (t.filter fun e => base + l.length ≤ e.1)

/-- What `n` keys from `base` up read as. -/
def Tab.span {α : Type} (t : List (Nat × α)) (d : α) (base n : Nat) : List α :=
  let near := t.filter fun e => base ≤ e.1 && e.1 < base + n
  (List.range n).map fun i => Tab.look near d (base + i)

/-- Remove every entry in a range of keys. -/
def Tab.clear {α : Type} (t : List (Nat × α)) (base n : Nat) : List (Nat × α) :=
  t.filter fun e => e.1 < base || base + n ≤ e.1

/-- The lowest key at or above `k` that is not listed, searching `fuel` keys. -/
def Tab.freeFrom {α : Type} (t : List (Nat × α)) : Nat → Nat → Option Nat
  | 0, _ => none
  | fuel + 1, k => if (Tab.opt t k).isNone then some k else Tab.freeFrom t fuel (k + 1)

/-- Keys strictly rising. -/
def Tab.rising {α : Type} : List (Nat × α) → Bool
  | [] => true
  | [_] => true
  | (a, _) :: (b, v) :: r => a < b && Tab.rising ((b, v) :: r)

/-- The canonical form of a table. -/
def Tab.wf {α : Type} [DecidableEq α] (t : List (Nat × α)) (d : α) : Bool :=
  Tab.rising t && t.all fun e => decide (e.2 ≠ d)

end Sys2Proof.Machine
end

