-- ==== Sys2Proof/Machine/Ops.lean ====
section
/-! DEFINITION. Named operations over the state: access to its parts, counters, event records, and the end of a kernel by a
fault. -/

namespace Sys2Proof.Machine

/-! ## Parts of the state -/

/-- A context (R356). -/
def State.ctx (s : State) (x : Nat) : Ctx := Tab.look s.ctxs {} x

/-- Change a context. -/
def State.modCtx (s : State) (x : Nat) (f : Ctx → Ctx) : State := { s with ctxs := Tab.upd s.ctxs {} x f }

/-- A physical core. -/
def State.core (s : State) (c : Nat) : CoreSt := Tab.look s.cores {} c

/-- Change a physical core. -/
def State.modCore (s : State) (c : Nat) (f : CoreSt → CoreSt) : State := { s with cores := Tab.upd s.cores {} c f }

/-- Logical core k of a context. -/
def State.lcore (s : State) (x k : Nat) : LCore := Tab.look (s.ctx x).lcores {} k

/-- Change a logical core of a context. -/
def State.modLcore (s : State) (x k : Nat) (f : LCore → LCore) : State :=
  s.modCtx x fun cx => { cx with lcores := Tab.upd cx.lcores {} k f }

/-- A port. -/
def State.port (s : State) (p : Nat) : Port := Tab.look s.fabric.ports {} p

/-- Change a port. -/
def State.modPort (s : State) (p : Nat) (f : Port → Port) : State :=
  { s with fabric := { s.fabric with ports := Tab.upd s.fabric.ports {} p f } }

/-- Change the turn unit. -/
def State.modTurn (s : State) (f : TurnUnit → TurnUnit) : State := { s with turn := f s.turn }

/-- Change the governor. -/
def State.modGov (s : State) (f : Governor → Governor) : State := { s with gov := f s.gov }

/-- One quadrant as the governor holds it. -/
def State.quad (s : State) (q : Nat) : QuadGov := Tab.look s.gov.quads {} q

/-- Change a quadrant of the governor. -/
def State.modQuad (s : State) (q : Nat) (f : QuadGov → QuadGov) : State :=
  { s with gov := { s.gov with quads := Tab.upd s.gov.quads {} q f } }

/-- The key of a ring in the table of rings. -/
def ringKey : RingId → Nat
  | .ctx x r => 16 * x + r
  | .admin => 4096

/-- A ring, if it is set up. -/
def State.ring (s : State) (r : RingId) : Option Ring := Tab.opt s.rings (ringKey r)

/-- Change a ring that is set up. -/
def State.modRing (s : State) (r : RingId) (f : Ring → Ring) : State :=
  { s with rings := Tab.change s.rings (ringKey r) f }

/-- A command of the tables, by its handle. -/
def State.cmd (s : State) (h : Word) : Option Cmd := s.cmds.find? fun c => c.handle == h

/-- Change the command with a handle. -/
def State.modCmd (s : State) (h : Word) (f : Cmd → Cmd) : State :=
  { s with cmds := modWhere (fun c => c.handle == h) f s.cmds }

/-- The kernel run of a command of a context. -/
def Ctx.kernel (cx : Ctx) (h : Word) : Option KRun := cx.kernels.find? fun k => k.handle == h

/-- Change the kernel run of a command. -/
def State.modKernel (s : State) (x : Nat) (h : Word) (f : KRun → KRun) : State :=
  s.modCtx x fun cx => { cx with kernels := modWhere (fun k => k.handle == h) f cx.kernels }

/-- The parameters of a function (R381). -/
def State.func (s : State) (f : Nat) : FuncParams := Tab.look s.net.funcs {} f

/-- Add what the block sends outside. -/
def State.emit (s : State) (o : Out) : State := { s with out := s.out ++ [o] }

/-- The state in which a command begins its work: nothing sent yet. -/
def State.start (s : State) : State := { s with out := [] }

/-- A command that cannot occur in a state leaves it as it is, and sends nothing (log entry 2). -/
def idle (s : State) : Host.Outcome State Fault Refusal := .next s.start

/-- What no command but those of the turn unit and of resets touches: the turn unit (R31, R33), the clock, the queue, and the factory area
(R544). -/
def State.settle (t s : State) : State := { t with turn := s.turn, now := s.now, pending := s.pending, factory := s.factory }

/-- Run an effect when its condition holds; otherwise the command cannot occur and changes nothing (log entry 2). -/
def when (b : Bool) (s : State) (f : State → State) : Host.Outcome State Fault Refusal :=
  if b then .next ((f s.start).settle s) else idle s

/-- The same for a command of the turn unit, or one that resets it. -/
def whenTurn (b : Bool) (s : State) (f : State → State) : Host.Outcome State Fault Refusal :=
  if b then .next { f s.start with now := s.now, pending := s.pending, factory := s.factory } else idle s

/-- The same for a command whose work t, from the state s, touches of the turn unit nothing but that it may have sent it from LOCKED to HOLDOVER,
as the entry to keeper mode does (R52). -/
def State.onlyHold (t s : State) : State :=
  { t with turn := if t.turn.st == .holdover && s.turn.st == .locked then s.turn.hold else s.turn }

/-- What work t from the state s leaves when it does not touch the turn unit (R33). -/
def State.sameTurn (t s : State) : State := { t with turn := s.turn }

/-- A command that may lead to keeper mode. -/
def whenHold (b : Bool) (s : State) (f : State → State) : Host.Outcome State Fault Refusal :=
  whenTurn b s fun s => (f s).onlyHold s

/-- The context and logical core that a physical core serves. -/
def State.ownerOf (s : State) (c : Nat) : Option (Nat × Nat) := (s.core c).owner

/-- Turn and phase as natural numbers. -/
def State.turnNo (s : State) : BitVec 64 := s.turn.count

/-- Ticks of 10 ns in an hour, in a second and in a millisecond (R31). -/
def ticksHour : Nat := 360000000000
/-- See `ticksHour`. -/
def ticksSecond : Nat := 100000000
/-- See `ticksHour`. -/
def ticksMs : Nat := 100000

/-- Are the cores powered: READY, and not in keeper mode (R553, R490)? -/
def State.powered (s : State) : Bool := s.board.stage == .ready

/-- Is the Volud serving: its firmware runs too, on the hub control processors of HC (R20, R553)? -/
def State.serving (s : State) : Bool := s.powered && !s.board.faulted.contains 2

/-- Has domain HT its power: the turn unit, the governor, the telemetry block and the event unit (R20, R25, R473)? -/
def State.htUp (s : State) : Bool := !s.board.faulted.contains 3

/-- Is the memory of a quadrant available: trained, and its controllers powered (R25, R240)? -/
def State.memUp (s : State) (q : Nat) : Bool := s.mem.avail.getLsbD q && !(s.board.faulted.any fun d => d == 0 || d == 4 || d == 6 + q)

/-- Does core c run a kernel now: served, not at rest (R454), started and not stopped? -/
def State.coreOn (s : State) (c : Nat) : Bool := s.powered && !s.gov.rest && (s.core c).running

/-! ## Event records (R467 to R473) -/

/-- The event codes of R470 by severity: 0 INFO, 1 WARNING, 2 ERROR, 3 FATAL; 4 for a code that the table does not list. -/
def severity (code : Nat) : Nat :=
  if code ∈ [0x0503, 0x0609, 0x0704, 0x0705, 0x0B04, 0x0B0D, 0x0C04, 0x0C05, 0x0C06, 0x0C0B, 0x0C0C, 0x0D04, 0x0E01] then 0
  else if code ∈ [0x0302, 0x0303, 0x0304, 0x0305, 0x0306, 0x0404, 0x0405, 0x0502, 0x0504, 0x0601, 0x0603, 0x0604, 0x0606,
    0x0706, 0x0802, 0x0803, 0x0804, 0x0806, 0x0807, 0x0808, 0x080A, 0x080C, 0x0901, 0x0A01, 0x0A03, 0x0A04, 0x0A06, 0x0B02,
    0x0B03, 0x0B05, 0x0B06, 0x0B09, 0x0B0C, 0x0C01, 0x0C07, 0x0D01, 0x0D03] then 1
  else if code ∈ [0x0101, 0x0102, 0x0103, 0x0104, 0x0105, 0x0106, 0x0107, 0x0108, 0x0109, 0x010A, 0x010B, 0x010C, 0x010D,
    0x010E, 0x0201, 0x0202, 0x0203, 0x0301, 0x0401, 0x0402, 0x0501, 0x0608, 0x0701, 0x0702, 0x0703, 0x0801, 0x0805, 0x080B,
    0x0A02, 0x0A05, 0x0C09, 0x0D02] then 2
  else if code ∈ [0x0307, 0x0403, 0x0406, 0x0407, 0x0602, 0x0605, 0x0607, 0x0809, 0x0B01, 0x0B07, 0x0B08, 0x0B0A, 0x0B0B,
    0x0C02, 0x0C03, 0x0C08, 0x0C0A] then 3
  else 4

/-- The function whose queue a record goes to (R471). -/
def State.evFunc (s : State) (r : EvRec) : Nat :=
  match r.ctx with
  | some x => (s.ctx x).req.func
  | none => r.func

/-- A counter after `n` more counts: at 2^48 - 1 it stays and is saturated (R474). -/
def Counter.add (c : Counter) (n : Nat) : Counter :=
  if c.cnt + n < 2 ^ 48 - 1 then { c with cnt := c.cnt + n } else { cnt := 2 ^ 48 - 1, sat := true }

/-- A counter as its 64-bit layout (R69): bit 48 saturated, bits 47 to 0 the count. -/
def Counter.word (c : Counter) : Word := BitVec.ofNat 64 (c.cnt + if c.sat then 2 ^ 48 else 0)

/-- Hold a record for a function's queue: at most 256 are held; a further one is dropped and counted, and the next one
delivered has LOST set (R472). -/
def EvQueue.hold (q : EvQueue) (r : EvRec) : EvQueue :=
  if q.held.length < 256 then { q with held := q.held ++ [r] }
  else { q with dropped := q.dropped.add 1, lostNext := true }

/-- Deliver a record or report to the subscribers of the Redfish event service, if there are any (R506). -/
def State.notify (s : State) (recno : Nat) : State := if 0 < s.sec.subs + s.sec.streams then s.emit (.redfish recno) else s

/-- Keep a record: number it, and send it to the log of 4096, to its function's queue and, from WARNING up, to Redfish
(R471, R473). -/
def State.keepEvent (s : State) (r : EvRec) : State :=
  let f := s.evFunc r
  let r := { r with turn := s.turn.count, phase := s.turn.phase, sev := severity r.code, recno := s.ev.recno, func := f }
  let log := s.ev.log ++ [r]
  let s : State := { s with ev := { s.ev with
      log := log.drop (log.length - 4096)
      recno := s.ev.recno + 1
      queues := Tab.upd s.ev.queues {} f fun q => q.hold r
      perCtx := match r.ctx with
        | some x => Tab.upd s.ev.perCtx 0 x fun n => n + 1
        | none => s.ev.perCtx
      perDev := s.ev.perDev + 1 } }
  if 1 ≤ r.sev then s.notify r.recno else s

/-- Throttle a record (R473): it takes no number and is only counted in the queue that would have received it. -/
def State.throttle (s : State) (f : Nat) (byCtx : Bool) : State :=
  { s with ev := { s.ev with
      queues := Tab.upd s.ev.queues {} f fun q => { q with dropped := q.dropped.add 1, lostNext := true }
      throttledCtx := if byCtx then s.ev.throttledCtx + 1 else s.ev.throttledCtx
      throttledDev := if byCtx then s.ev.throttledDev else s.ev.throttledDev + 1 } }

/-- Raise an event (R467, R473): at most 64 records for each context and 1024 for the device in a turn are kept;
EVENTS_THROTTLED itself is never throttled. While HT has no power the event unit raises none (R20, R473). -/
def State.raise (s : State) (r : EvRec) : State :=
  if !s.htUp then s
  else if r.code = 0x0C07 then s.keepEvent r
  else if r.ctx.any fun x => 64 ≤ Tab.look s.ev.perCtx 0 x then s.throttle (s.evFunc r) true
  else if 1024 ≤ s.ev.perDev then s.throttle (s.evFunc r) false
  else s.keepEvent r

/-- Raise an event that names no context. -/
def State.raiseDev (s : State) (code unit index : Nat) (detail : List Nat) : State :=
  s.raise { code, unit, index, detail }

/-- Raise an event that names a context. -/
def State.raiseCtx (s : State) (x code : Nat) (detail : List Nat) : State := s.raise { code, ctx := some x, detail }

/-! ## Counters (R474, R598) -/

/-- The telemetry address of counter n of instance i of kind k (R598). -/
def ctrAddr (k stride i n : Nat) : Nat := 0x800000 + 0x100000 * k + stride * i + 8 * n

/-- Count into a telemetry counter; the count that saturates it raises COUNTER_SATURATED once (R474). -/
def State.bump (s : State) (addr n : Nat) (x : Option Nat := none) : State :=
  let c := Tab.look s.counters {} addr
  let c' := c.add n
  let s := { s with counters := Tab.put s.counters {} addr c' }
  if c'.sat && !c.sat then s.raise { code := 0x0C06, ctx := x, detail := [addr] } else s

/-- Count into counter n of a context, in the numbering of QUERY WHAT 0 (R346). -/
def State.bumpCtx (s : State) (x n k : Nat) : State :=
  let c := Tab.look s.ctxCounters {} (1024 * x + n)
  let c' := c.add k
  let s := { s with ctxCounters := Tab.put s.ctxCounters {} (1024 * x + n) c' }
  if c'.sat && !c.sat then s.raise { code := 0x0C06, ctx := some x } else s

/-- The number in QUERY WHAT 0 of counter n of a core: R153 (0 to 10), R188 (11 to 18) and R306 (19 to 25); the counters of
R98 and R123 come before them, the shares of R263 between R188 and R306 (log entry 12). -/
def ctxNoOfCore (n : Nat) : Nat := if n < 19 then 12 + n else 14 + n

/-- Count into counter n of a core, for the context that owns the core (R153, R188, R306). -/
def State.bumpCore (s : State) (c n k : Nat) : State :=
  let s := s.bump (ctrAddr 1 256 c n) k
  match s.ownerOf c with
  | some (x, _) => s.bumpCtx x (ctxNoOfCore n) k
  | none => s

/-- Count into counter n of a physical array (R98: 0 to 7; R123: 8 to 11), for a context if one is charged. -/
def State.bumpArray (s : State) (a n k : Nat) (x : Option Nat) : State :=
  let s := s.bump (ctrAddr 0 256 a n) k
  match x with
  | some x => s.bumpCtx x n k
  | none => s

/-- Count into counter n of a memory channel (R263); the slower tier has none. -/
def State.bumpChannel (s : State) (ch n k : Nat) : State := if 384 ≤ ch then s else s.bump (ctrAddr 2 128 ch n) k

/-- Count into counter n of a port (R414). -/
def State.bumpPort (s : State) (p n k : Nat) : State := s.bump (ctrAddr 3 256 p n) k

/-- Count into counter n of a ring (R355); the admin ring's counters are the device's first (R598). -/
def State.bumpRing (s : State) (r : RingId) (n k : Nat) : State :=
  match r with
  | .ctx x i => s.bump (ctrAddr 4 128 (16 * x + i) n) k
  | .admin => s.bump (ctrAddr 7 0 0 n) k

/-- Count into counter n of a context's telemetry: R380 (0 to 7), the firmware counters of R306 (8 to 13), R439 (14 to 21)
and R542 (22 to 25). -/
def State.bumpFw (s : State) (x n k : Nat) : State :=
  let s := s.bump (ctrAddr 5 256 x n) k (some x)
  if 8 ≤ n && n ≤ 13 then s.bumpCtx x (32 + n) k
  else if 14 ≤ n && n ≤ 21 then s.bumpCtx x (35 + n) k
  else s

/-- Count into counter n of a quadrant (R465). -/
def State.bumpQuad (s : State) (q n k : Nat) : State := s.bump (ctrAddr 6 128 q n) k

/-- Count a case of the table of R325, by its row from 0 (R598: from offset 0x40 of the device's counters). -/
def State.bumpLink (s : State) (row : Nat) : State := s.bump (ctrAddr 7 0 0 (8 + row)) 1

/-! ## The end of a kernel by a fault -/

/-- Stop the engines of a core and discard their queued and running accesses and passes (R149). -/
def CoreSt.halt (k : CoreSt) : CoreSt :=
  { k with running := false, vq := [], leat := [], remotes := [], arrays := [], stall := none, loads := [], sums := [],
           exiting := none, draining := false, stallTicks := [], deadTicks := 0, gather := [] }

/-- Is an array at rest: nothing queued, no pass or drain in its slots? -/
def ArraySt.quiet (a : ArraySt) : Bool :=
  a.queue.isEmpty && [a.slot0.use, a.slot1.use].all fun u => u == .empty

/-- Has every operation issued to every unit of the core completed (R213, R237)? -/
def CoreSt.quiet (k : CoreSt) : Bool :=
  k.vq.isEmpty && k.leat.isEmpty && k.remotes.isEmpty && k.sums.isEmpty && k.loads.isEmpty &&
    k.arrays.all fun e => e.2.quiet

/-- Write the dirty bytes of every gather entry into the rows of a logical core. -/
def LCore.absorb (l : LCore) (g : List GEntry) : LCore :=
  g.foldl (fun l e =>
    let l := { l with rows := e.dirty.foldl (fun r b => Tab.put r 0 (512 * e.row + b) (Tab.look e.bytes 0 b)) l.rows }
    let rewritten : Nat → Bool := fun i => i / 64 == e.row && (List.range 8).all fun b => e.dirty.contains (8 * (i % 64) + b)
    let l := { l with bad := l.bad.filter fun i => !rewritten i, soft := l.soft.filter fun i => !rewritten i }
    if e.dirty.length = 512 then { l with poison := l.poison.filter (· != e.row) } else l) l

/-- Stop the kernels of a context on every core of its core set (R149); stores that the gather buffers hold are written back
first, as for any end of a kernel (R134). On a core on which a precise fault has been found, earlier instructions complete first (R230). -/
def State.stopKernels (s : State) (x : Nat) (precise : Option Nat := none) : State :=
  (s.ctx x).placed.foldl (fun s c =>
    match s.ownerOf c with
    | some (y, k) =>
      if y = x then
        let g := (s.core c).gather
        if precise = some c && !(s.core c).quiet then s.modCore c fun k => { k with draining := true, stall := none }
        else (s.modLcore x k fun l => l.absorb g).modCore c CoreSt.halt
      else s
    | none => s) s

/-- A failure of a kernel command as a whole: the first one decides the status and the DETAIL code (R349, R469), and the
kernels stop on every core (R231). -/
def State.failKernel (s : State) (x : Nat) (h : Word) (status detail : Nat) (precise : Option Nat := none) : State :=
  let s := s.modCmd h fun c => match c.whole with
    | none => { c with whole := some status, detail := detail }
    | some _ => c
  (s.modKernel x h fun k => { k with stopped := true }).stopKernels x precise

/-- The fault record of an engine of core c, and the stop of its command's kernels (R231, R467, R469). A record of a command
that has failed already is SUPPRESSED. Timeouts and deadlocks, 0x02xx, discard what is queued (R149); a precise fault does not (R230). -/
def State.fault (s : State) (c unit index code status : Nat) (precise : Bool) (off : Option Nat) (addr : Nat)
    (detail : List Nat) : State :=
  match s.ownerOf c with
  | none => s
  | some (x, _) =>
    let h := (s.core c).handle
    let sup := match s.cmd h with
      | some m => m.whole.isSome
      | none => false
    let s := s.raise { code, ctx := some x, handle := some h, core := some c, unit, index, precise, suppressed := sup,
                       codeOff := off, address := addr, detail }
    s.failKernel x h status 0x09 (if precise && code < 0x0200 then some c else none)

/-- The status with which an untrapped fault completes its command (R231). -/
def faultStatus (code : Nat) : Nat :=
  if code = 0x0109 then 0x03 else if code = 0x010A || code = 0x010B then 0x06 else if code = 0x010C then 0x09 else 0x02

/-- A fault that the control core detects at the current instruction: precise (R230). -/
def State.ctlFault (s : State) (c code addr : Nat) : State :=
  s.fault c 1 0 code (faultStatus code) true (some (s.core c).pc) addr []

end Sys2Proof.Machine
end

