-- ==== Sys2Proof/Machine/Units.lean ====
section
/-! DEFINITION. Column and lane maps, native widths, and the additions to the field lists (R89 to R93, R184 to R186). -/

namespace Sys2Proof.Machine

/-- The bad columns of a physical array in force: factory list and field list (R89). -/
def State.badCols (s : State) (a : Nat) : List Nat :=
  (Tab.look s.factory.columns [] a ++ Tab.look s.units.fieldCols [] a).eraseDups

/-- The bad lanes of a core in force (R184). -/
def State.badLanes (s : State) (c : Nat) : List Nat :=
  (Tab.look s.factory.lanes [] c ++ Tab.look s.units.fieldLanes [] c).eraseDups

/-- Native width of an array with b bad columns (R89). -/
def colWidth (b : Nat) : Nat := if b ≤ 2 then 64 else if b ≤ 10 then 66 - b else 0

/-- Native lane width with b bad lanes (R184). -/
def laneWidth (b : Nat) : Nat := if b ≤ 1 then 64 else if b ≤ 9 then 65 - b else 0

/-- Native width of a physical array; 0 on a withdrawn core (R89, R482). -/
def State.arrayWidth (s : State) (a : Nat) : Nat :=
  if a / 8 ∈ s.units.withdrawn then 0 else colWidth (s.badCols a).length

/-- Native lane width of a core's vector engine; 0 on a withdrawn core. -/
def State.engineWidth (s : State) (c : Nat) : Nat :=
  if c ∈ s.units.withdrawn then 0 else laneWidth (s.badLanes c).length

/-- The physical column of logical column j: the j-th good one from 0 (R89). -/
def State.physCol (s : State) (a j : Nat) : Nat := (((List.range 66).filter fun p => p ∉ s.badCols a)).getD j 65

/-- The physical lane of logical lane j (R184). -/
def State.physLane (s : State) (c j : Nat) : Nat := (((List.range 65).filter fun p => p ∉ s.badLanes c)).getD j 64

/-- Add a column to the field list; its width counts from the next boundary (R92, R93). -/
def State.addCol (s : State) (a p : Nat) : State :=
  if p ∈ s.badCols a || p ∈ Tab.look s.units.pendCols [] a then s
  else { s with units := { s.units with pendCols := Tab.upd s.units.pendCols [] a fun l => l ++ [p] },
                fw := { s.fw with fieldDirty := true } }

/-- Add a lane to the field list (R186). -/
def State.addLane (s : State) (c p : Nat) : State :=
  if p ∈ s.badLanes c || p ∈ Tab.look s.units.pendLanes [] c then s
  else { s with units := { s.units with pendLanes := Tab.upd s.units.pendLanes [] c fun l => l ++ [p] },
                fw := { s.fw with fieldDirty := true } }

/-- Note an uncorrectable error of a lane; the third within 24 hours adds it to the field list (R186). -/
def State.noteLaneUe (s : State) (c p : Nat) : State :=
  let log := (s.units.laneUe.filter fun e => s.now < e.2.2 + 24 * ticksHour) ++ [(c, p, s.now)]
  let s : State := { s with units := { s.units with laneUe := log } }
  if 3 ≤ (log.filter fun e => e.1 = c && e.2.1 = p).length then s.addLane c p else s

/-- Note a parity error of an array: of a column, or 0xFFFF for an A-hopper error; the third of a column within 24 hours adds it to
the field list, the third A-hopper error calls for a test at the next idle slot (R92). -/
def State.noteParity (s : State) (a p : Nat) : State :=
  let log := (s.units.parity.filter fun e => s.now < e.2.2 + 24 * ticksHour) ++ [(a, p, s.now)]
  let s : State := { s with units := { s.units with parity := log } }
  if 3 ≤ (log.filter fun e => e.1 = a && e.2.1 = p).length then
    (if p = 0xFFFF then { s with units := { s.units with testDue := addNew a s.units.testDue } } else s.addCol a p)
  else s

/-! ## Growth of the field lists (R93, R186) -/

/-- Contexts that have a core in their core sets, and whose active width a unit of it met before and meets no more. -/
def State.outgrown (s : State) (old new core : Nat) : List Nat :=
  (s.ctxs.filter fun e => e.2.st != .closed && new < e.2.width && e.2.width ≤ old &&
    (e.2.placed.contains core || e.2.lcores.any fun l => l.2.home == some core)).map fun e => e.1

/-- What a width that has fallen from one value to another does: a unit of width 0 is withdrawn, and each context that has lost its use is noted.
Units are numbered as in `Units.tested`. -/
def State.narrowed (s : State) (old new u : Nat) : State :=
  if new = old then s
  else
    let core := if u < 1024 then u / 8 else u - 1024
    let s := if new = 0 then
        (if u < 1024 then s.raise { code := 0x0304, unit := 4, index := u % 8, core := some core }
         else s.raise { code := 0x0306, unit := 3, core := some core }) else s
    { s with units := { s.units with narrowing := s.units.narrowing ++ (s.outgrown old new core).map fun x => (x, u) } }

/-- Does a context run a step now, which finishes on its units as they stood (R93)? -/
def State.inStep (s : State) (x : Nat) : Bool := (s.ctx x).kernels.any fun r => r.started && !r.stopped

/-- ARRAY_NARROWED and LANE_NARROWED for every context that has come to its step boundary (R93, R186); one that has closed has none. -/
def State.reportNarrow (s : State) : State :=
  let l := s.units.narrowing
  let s : State := { s with units := { s.units with narrowing := l.filter fun e => s.inStep e.1 } }
  (l.filter fun e => !s.inStep e.1 && (s.ctx e.1).st != .closed).foldl (fun s e =>
    if e.2 < 1024 then s.raise { code := 0x0303, ctx := some e.1, unit := 4, index := e.2 % 8, core := some (e.2 / 8) }
    else s.raise { code := 0x0305, ctx := some e.1, unit := 3, core := some (e.2 - 1024) }) s

/-- Put the additions to the field lists into effect, in order step 4, or at start-up (R93, R186, R549). -/
def State.growLists (s : State) : State :=
  let s0 := s
  let s : State := { s with units := { s.units with
    fieldCols := s.units.pendCols.foldl (fun t e => Tab.upd t [] e.1 fun l => l ++ e.2) s.units.fieldCols
    fieldLanes := s.units.pendLanes.foldl (fun t e => Tab.upd t [] e.1 fun l => l ++ e.2) s.units.fieldLanes
    pendCols := []
    pendLanes := [] } }
  let s := s0.units.pendCols.foldl (fun s e => s.narrowed (s0.arrayWidth e.1) (s.arrayWidth e.1) e.1) s
  (s0.units.pendLanes.foldl (fun s e => s.narrowed (s0.engineWidth e.1) (s.engineWidth e.1) (1024 + e.1)) s).reportNarrow

/-- The arrays and vector engines are tested before they serve: at a cold start, after a warm reset and after keeper mode; what fails is added to
the field lists, and its width counts at once (R92, R186, R492, R549). -/
def State.unitTests (s : State) (cols lanes : List (Nat × Nat)) : State :=
  let s := (cols.filter fun e => e.1 < 1024 && e.2 < 66).foldl (fun s e => s.addCol e.1 e.2) s
  let s := (lanes.filter fun e => e.1 < 128 && e.2 < 65).foldl (fun s e => s.addLane e.1 e.2) s
  { s.growLists with units := { s.growLists.units with testedAll := s.now, tested := [] } }

end Sys2Proof.Machine
end

