-- ==== Sys2Proof/Config.lean ====
section
/-! DEFINITION. The constants of the part, and the free values: opaque functions that nothing in Lean can evaluate. A free
value stands for a value that the spec leaves open, or for a cryptographic result whose key material no statement needs. -/

namespace Sys2Proof.Config

/-- Q_LIMIT of R246: the first invalid offset within a quadrant. -/
def qLimit : Nat := 0x10417CE0000

/-- A 2 MiB page (R248). -/
def page : Nat := 0x200000

/-- The scratchpad aperture (R209). -/
def aperture : Nat := 0xFFFFFF000000

/-- The end of the 48-bit context address space (R248). -/
def vaEnd : Nat := 0x1000000000000

/-- The highest queue protocol served, as major and minor bytes (R333). -/
def vqpMax : Nat := 0x0101

/-- The lowest queue protocol served (R333). -/
def vqpMin : Nat := 0x0100

/-- The instruction-set minor version served (R233, R582). -/
def isaMinor : Nat := 0

/-- The highest link version served (R387, R582). -/
def linkMax : Nat := 0x0101

/-- The lowest link version served. -/
def linkMin : Nat := 0x0100

/-- Free bytes: the argument counts the free values taken (log entry 4). -/
opaque freeByte : Nat → Byte

/-- Free words (log entry 4). -/
opaque freeWord : Nat → Word

/-- Free choices between two outcomes (log entry 4). -/
opaque freeBool : Nat → Bool

/-- AES-256 of one block under a 32-byte key (FIPS 197), as used for the pads of R516 (log entry 5). -/
opaque aes256 : Bytes → BitVec 128 → BitVec 128

/-- A key of the security processor's stores: pad, hash and memory keys, by purpose and number (R509, R514; log entry 5). -/
opaque secretKey : Nat → Nat → Bytes

/-- A signature by the key of a purpose over a byte string (R496, R536; log entry 5). -/
opaque sign : Nat → Bytes → Bytes

/-- Random bytes of the entropy source (R498; log entry 5). -/
opaque entropy : Nat → Nat → Bytes

/-- The digest T over the authentication payloads of a port, by port, own nonce and peer's nonce (R520; log entry 5). -/
opaque transcript : Nat → Bytes → Bytes → Bytes

/-- The certificates, digests and measurement values of a slot, as bytes (R499, R500; log entry 5). -/
opaque certificate : Nat → Bytes

/-- Measurements 1, 2 and 4, by index: digests of the boot ROM, the recovery loader and the factory area (R500; log entry 5). -/
opaque measured : Nat → Bytes

/-- Measurement 5 as a function of the settings it covers: the spec does not say how they are laid out under the digest (R500; log entry 5). -/
opaque configMeasured : List Nat → Bytes

/-- The vendor identifier of the part, which the spec does not give (R582; log entry 4). -/
opaque vendor : BitVec 16

/-- The activity model's FP32 evaluation, in µJ, of a sum of event energies in units of 1/16 pJ and of leakages: each a product of LEAK, ticks and
quarters, in units of 25 pJ at 85 °C, with the mean temperature in thousandths of a degree (R460). The spec calls the result an estimate
that is never exact (log entry 40). -/
opaque fp32Model : Nat → List (Nat × Int) → Nat

/-- Does a fused multiply-add of 0 × ∞ and a quiet NaN signal INVALID? IEEE 754 leaves it to the implementation (log entry 9). -/
opaque fmaQuietInvalid : Bool

end Sys2Proof.Config
end

