-- ==== Sys2Proof/Machine/Float.lean ====
section
/-! DEFINITION. Binary floating point on exact values (R166, IEEE 754-2019): decoding, one rounding function for every format,
the arithmetic operations with their exception flags, and the roundings of the quantiser's 16- and 32-bit formats (R66). A
format is given by its exponent bits `eb` and mantissa bits `mb`: binary32 is 8 and 23, binary64 is 11 and 52, binary16 is 5
and 10, bfloat16 is 8 and 7. -/

namespace Sys2Proof.Machine

/-- A decoded value: NaN (signalling or not), an infinity, or ± m × 2^e. -/
inductive FVal where
  | nan (signalling : Bool)
  | inf (neg : Bool)
  | fin (neg : Bool) (m : Nat) (e : Int)
  deriving DecidableEq, Repr

/-! ## Exception flags in the places of VFLAGS (R166) -/

/-- INVALID. -/
def flInvalid : Nat := 16
/-- DIVZERO. -/
def flDivZero : Nat := 8
/-- OVERFLOW. -/
def flOverflow : Nat := 4
/-- UNDERFLOW. -/
def flUnderflow : Nat := 2
/-- INEXACT. -/
def flInexact : Nat := 1

/-- The exponent of the least normal number: 2 - 2^(eb-1). -/
def fEmin (eb : Nat) : Int := 2 - (2 ^ (eb - 1) : Nat)

/-- Decode the bits of a format. -/
def fDecode (eb mb v : Nat) : FVal :=
  let neg := v.testBit (eb + mb)
  let e := fieldN v mb eb
  let m := fieldN v 0 mb
  if e = 2 ^ eb - 1 then
    if m = 0 then .inf neg else .nan (!m.testBit (mb - 1))
  else if e = 0 then .fin neg m (fEmin eb - mb)
  else .fin neg (m + 2 ^ mb) (fEmin eb - mb + (e - 1))

/-- The sign bit in place. -/
def fSign (eb mb : Nat) (neg : Bool) : Nat := if neg then 2 ^ (eb + mb) else 0

/-- The bits of an infinity. -/
def fInf (eb mb : Nat) (neg : Bool) : Nat := fSign eb mb neg + (2 ^ eb - 1) * 2 ^ mb

/-- The canonical quiet NaN: 0x7FC0_0000 for binary32 (R166). -/
def fNaN (eb mb : Nat) : Nat := (2 ^ eb - 1) * 2 ^ mb + 2 ^ (mb - 1)

/-- The bits of a zero. -/
def fZero (eb mb : Nat) (neg : Bool) : Nat := fSign eb mb neg

/-- The largest finite magnitude. -/
def fMax (eb mb : Nat) : Nat := (2 ^ eb - 1) * 2 ^ mb - 1

/-- The bits needed for a number. -/
def bitLen (n : Nat) : Nat := if n = 0 then 0 else Nat.log2 n + 1

/-- Shift a magnitude right by an integer amount, or left when it is negative. -/
def shiftI (m : Nat) (k : Int) : Nat := if k < 0 then m * 2 ^ k.natAbs else m / 2 ^ k.natAbs

/-- What a right shift drops: 0 nothing, 1 less than half, 2 half, 3 more than half; `sticky` says that the value lies strictly
above m. -/
def dropped (m : Nat) (k : Int) (sticky : Bool) : Nat :=
  if k ≤ 0 then (if sticky then 1 else 0)
  else
    let r := m % 2 ^ k.natAbs
    let h := 2 ^ (k.natAbs - 1)
    if r = 0 then (if sticky then 1 else 0)
    else if r < h then 1
    else if r = h then (if sticky then 3 else 2)
    else 3

/-- Round to nearest, ties to even: should the magnitude q with this remainder go up? -/
def goesUp (q d : Nat) : Bool := d == 3 || (d == 2 && q % 2 == 1)

/-- Round ± m × 2^e (or a value strictly between m and m + 1 units when `sticky`) to a format, to nearest with ties to even,
subnormals kept; tininess after rounding (R166). Answers bits and flags. -/
def fRound (eb mb : Nat) (neg : Bool) (m : Nat) (e : Int) (sticky : Bool) : Nat × Nat :=
  if m = 0 && !sticky then (fZero eb mb neg, 0)
  else
    let top : Int := e + bitLen m - 1
    let sub : Int := fEmin eb - mb
    let qe : Int := max (top - mb) sub
    let k : Int := qe - e
    let q0 := shiftI m k
    let d := dropped m k sticky
    let q := if goesUp q0 d then q0 + 1 else q0
    let inexact := d != 0
    -- the same rounding with an unbounded exponent range, for tininess
    let ku : Int := top - mb - e
    let qu0 := shiftI m ku
    let qu := if goesUp qu0 (dropped m ku sticky) then qu0 + 1 else qu0
    let tiny := top < fEmin eb - 1 || (top == fEmin eb - 1 && qu < 2 ^ (mb + 1)) || m == 0
    let bits := (qe - sub).toNat * 2 ^ mb + q
    if (2 ^ eb - 1) * 2 ^ mb ≤ bits then (fInf eb mb neg, flOverflow + flInexact)
    else (fSign eb mb neg + bits, (if tiny && inexact then flUnderflow else 0) + if inexact then flInexact else 0)

/-- An exact signed dyadic value, rounded; the sign of an exact zero is given. -/
def fRoundI (eb mb : Nat) (v : Int) (e : Int) (zeroNeg : Bool) : Nat × Nat :=
  if v = 0 then (fZero eb mb zeroNeg, 0) else fRound eb mb (v < 0) v.natAbs e false

/-- Is the value a signalling NaN? -/
def FVal.snan : FVal → Bool
  | .nan s => s
  | .inf _ => false
  | .fin _ _ _ => false

/-- Is the value a NaN? -/
def FVal.isNan : FVal → Bool
  | .nan _ => true
  | .inf _ => false
  | .fin _ _ _ => false

/-- The INVALID flag if any operand is a signalling NaN. -/
def snanFlag (l : List FVal) : Nat := if l.any FVal.snan then flInvalid else 0

/-- The signed mantissa. -/
def sgn (neg : Bool) (m : Nat) : Int := if neg then -(m : Int) else m

/-- Sum of two dyadic values: mantissa and exponent. -/
def dyAdd (a : Int) (ea : Int) (b : Int) (eb : Int) : Int × Int :=
  let e := min ea eb
  (a * (2 ^ (ea - e).toNat : Nat) + b * (2 ^ (eb - e).toNat : Nat), e)

/-- Addition. -/
def fAddV (eb mb : Nat) (x y : FVal) : Nat × Nat :=
  match x, y with
  | .nan _, _ => (fNaN eb mb, snanFlag [x, y])
  | _, .nan _ => (fNaN eb mb, snanFlag [x, y])
  | .inf a, .inf b => if a = b then (fInf eb mb a, 0) else (fNaN eb mb, flInvalid)
  | .inf a, .fin _ _ _ => (fInf eb mb a, 0)
  | .fin _ _ _, .inf b => (fInf eb mb b, 0)
  | .fin a m e, .fin b n f =>
    let r := dyAdd (sgn a m) e (sgn b n) f
    fRoundI eb mb r.1 r.2 (m == 0 && n == 0 && a && b)

/-- Flip the sign of a value. -/
def FVal.negate : FVal → FVal
  | .nan s => .nan s
  | .inf a => .inf (!a)
  | .fin a m e => .fin (!a) m e

/-- Multiplication. -/
def fMulV (eb mb : Nat) (x y : FVal) : Nat × Nat :=
  match x, y with
  | .nan _, _ => (fNaN eb mb, snanFlag [x, y])
  | _, .nan _ => (fNaN eb mb, snanFlag [x, y])
  | .inf a, .inf b => (fInf eb mb (a != b), 0)
  | .inf a, .fin b n _ => if n = 0 then (fNaN eb mb, flInvalid) else (fInf eb mb (a != b), 0)
  | .fin a m _, .inf b => if m = 0 then (fNaN eb mb, flInvalid) else (fInf eb mb (a != b), 0)
  | .fin a m e, .fin b n f =>
    if m = 0 || n = 0 then (fZero eb mb (a != b), 0) else fRound eb mb (a != b) (m * n) (e + f) false

/-- Is x × y the product of a zero and an infinity? -/
def zeroTimesInf (x y : FVal) : Bool :=
  match x, y with
  | .inf _, .fin _ n _ => n == 0
  | .fin _ m _, .inf _ => m == 0
  | _, _ => false

/-- Fused multiply-add, rounded once (R166). Whether 0 × ∞ plus a quiet NaN signals INVALID is left open by IEEE 754 (7.2) and
is a constant of the part (log entry 9). -/
def fFmaV (eb mb : Nat) (x y z : FVal) : Nat × Nat :=
  if x.isNan || y.isNan || z.isNan then
    (fNaN eb mb, snanFlag [x, y, z] ||| if zeroTimesInf x y && Config.fmaQuietInvalid then flInvalid else 0)
  else if zeroTimesInf x y then (fNaN eb mb, flInvalid)
  else
    match x, y, z with
    | .fin a m e, .fin b n f, .fin c o g =>
      let p := sgn (a != b) (m * n)
      let r := dyAdd p (e + f) (sgn c o) g
      fRoundI eb mb r.1 r.2 (m * n == 0 && o == 0 && (a != b) && c)
    | .fin _ _ _, .fin _ _ _, .inf c => (fInf eb mb c, 0)
    | .inf a, .inf b, .inf c => if (a != b) = c then (fInf eb mb c, 0) else (fNaN eb mb, flInvalid)
    | .inf a, .fin b _ _, .inf c => if (a != b) = c then (fInf eb mb c, 0) else (fNaN eb mb, flInvalid)
    | .fin a _ _, .inf b, .inf c => if (a != b) = c then (fInf eb mb c, 0) else (fNaN eb mb, flInvalid)
    | .inf a, .inf b, .fin _ _ _ => (fInf eb mb (a != b), 0)
    | .inf a, .fin b _ _, .fin _ _ _ => (fInf eb mb (a != b), 0)
    | .fin a _ _, .inf b, .fin _ _ _ => (fInf eb mb (a != b), 0)
    | _, _, _ => (fNaN eb mb, flInvalid)

/-- A positive quotient m / n × 2^e, rounded. -/
def fQuot (eb mb : Nat) (neg : Bool) (m n : Nat) (e : Int) : Nat × Nat :=
  let k := mb + 4 + bitLen n
  let a := m * 2 ^ k
  fRound eb mb neg (a / n) (e - k) (a % n != 0)

/-- Division. -/
def fDivV (eb mb : Nat) (x y : FVal) : Nat × Nat :=
  match x, y with
  | .nan _, _ => (fNaN eb mb, snanFlag [x, y])
  | _, .nan _ => (fNaN eb mb, snanFlag [x, y])
  | .inf _, .inf _ => (fNaN eb mb, flInvalid)
  | .inf a, .fin b _ _ => (fInf eb mb (a != b), 0)
  | .fin a _ _, .inf b => (fZero eb mb (a != b), 0)
  | .fin a m e, .fin b n f =>
    if n = 0 then (if m = 0 then (fNaN eb mb, flInvalid) else (fInf eb mb (a != b), flDivZero))
    else if m = 0 then (fZero eb mb (a != b), 0)
    else fQuot eb mb (a != b) m n (e - f)

/-- One Newton step of the integer square root. -/
def isqrtLoop : Nat → Nat → Nat → Nat
  | 0, _, x => x
  | k + 1, n, x =>
    let y := (x + n / x) / 2
    if y < x then isqrtLoop k n y else x

/-- The integer square root. -/
def isqrt (n : Nat) : Nat := if n = 0 then 0 else isqrtLoop (bitLen n + 2) n (2 ^ (bitLen n / 2 + 1))

/-- Square root. -/
def fSqrtV (eb mb : Nat) (x : FVal) : Nat × Nat :=
  match x with
  | .nan s => (fNaN eb mb, if s then flInvalid else 0)
  | .inf a => if a then (fNaN eb mb, flInvalid) else (fInf eb mb false, 0)
  | .fin a m e =>
    if m = 0 then (fZero eb mb a, 0)
    else if a then (fNaN eb mb, flInvalid)
    else
      let k := 2 * (mb + 4) + (if (e % 2) = 0 then 0 else 1)
      let n := m * 2 ^ k
      let r := isqrt n
      fRound eb mb false r ((e - k) / 2) (r * r != n)

/-- Reciprocal square root (clause 9.2: ±0 gives ±∞ and divides by zero). -/
def fRsqrtV (eb mb : Nat) (x : FVal) : Nat × Nat :=
  match x with
  | .nan s => (fNaN eb mb, if s then flInvalid else 0)
  | .inf a => if a then (fNaN eb mb, flInvalid) else (fZero eb mb false, 0)
  | .fin a m e =>
    if m = 0 then (fInf eb mb a, flDivZero)
    else if a then (fNaN eb mb, flInvalid)
    else
      -- 1 / sqrt (m 2^e) with e made even: 2^(-e/2) × 2^k / sqrt (m 2^(2k)) ...
      let m2 := if (e % 2) = 0 then m else 2 * m
      let e2 := if (e % 2) = 0 then e else e - 1
      let k := mb + 4 + bitLen m2
      let n := 2 ^ (2 * k)
      let r := isqrt (n / m2)
      fRound eb mb false r (-(e2 / 2) - k) (r * r * m2 != n)

/-- An order key of a value that is not a NaN, with −0 below +0. -/
def fLess (x y : FVal) : Bool :=
  match x, y with
  | .inf a, .inf b => a && !b
  | .inf a, .fin _ _ _ => a
  | .fin _ _ _, .inf b => !b
  | .fin a m e, .fin b n f =>
    let d := dyAdd (sgn a m) e (-(sgn b n)) f
    if m = 0 && n = 0 then a && !b else d.1 < 0
  | _, _ => false

/-- Numeric order of values that are not NaNs: zeros are equal. -/
def fCmp (x y : FVal) : Ordering :=
  match x, y with
  | .fin _ 0 _, .fin _ 0 _ => .eq
  | _, _ => if fLess x y then .lt else if fLess y x then .gt else .eq

/-- MIN or MAX on bits (R166). -/
def fMinMax (eb mb : Nat) (isMax : Bool) (a b : Nat) : Nat × Nat :=
  let x := fDecode eb mb a
  let y := fDecode eb mb b
  if x.isNan || y.isNan then (fNaN eb mb, snanFlag [x, y])
  else if fLess x y then (if isMax then b else a, 0) else (if isMax then a else b, 0)

/-- The relations of R222: 0 EQ, 1 NE, 2 LT, 3 LE, 4 GT, 5 GE, 6 ORD; with the INVALID rule of R164. -/
def fRel (eb mb rel a b : Nat) : Bool × Nat :=
  let x := fDecode eb mb a
  let y := fDecode eb mb b
  if x.isNan || y.isNan then
    (rel == 1, if 2 ≤ rel && rel ≤ 5 then flInvalid else snanFlag [x, y])
  else
    let o := fCmp x y
    (match rel with
      | 0 => o == .eq
      | 1 => o != .eq
      | 2 => o == .lt
      | 3 => o != .gt
      | 4 => o == .gt
      | 5 => o != .lt
      | _ => true, 0)

/-! ## Operations on bits -/

/-- Addition on bits. -/
def fAdd (eb mb a b : Nat) : Nat × Nat := fAddV eb mb (fDecode eb mb a) (fDecode eb mb b)
/-- Subtraction on bits. -/
def fSub (eb mb a b : Nat) : Nat × Nat := fAddV eb mb (fDecode eb mb a) (fDecode eb mb b).negate
/-- Multiplication on bits. -/
def fMul (eb mb a b : Nat) : Nat × Nat := fMulV eb mb (fDecode eb mb a) (fDecode eb mb b)
/-- Fused multiply-add on bits. -/
def fFma (eb mb a b c : Nat) : Nat × Nat := fFmaV eb mb (fDecode eb mb a) (fDecode eb mb b) (fDecode eb mb c)
/-- Fused multiply-subtract on bits. -/
def fFms (eb mb a b c : Nat) : Nat × Nat := fFmaV eb mb (fDecode eb mb a) (fDecode eb mb b) (fDecode eb mb c).negate
/-- Division on bits. -/
def fDiv (eb mb a b : Nat) : Nat × Nat := fDivV eb mb (fDecode eb mb a) (fDecode eb mb b)
/-- Square root on bits. -/
def fSqrt (eb mb a : Nat) : Nat × Nat := fSqrtV eb mb (fDecode eb mb a)
/-- Reciprocal square root on bits. -/
def fRsqrt (eb mb a : Nat) : Nat × Nat := fRsqrtV eb mb (fDecode eb mb a)

/-- Conversion between formats, as an arithmetic operation: NaNs become canonical, a signalling one raises INVALID. -/
def fConvert (eb mb eb' mb' a : Nat) : Nat × Nat :=
  match fDecode eb mb a with
  | .nan s => (fNaN eb' mb', if s then flInvalid else 0)
  | .inf n => (fInf eb' mb' n, 0)
  | .fin n m e => fRound eb' mb' n m e false

/-- An integer to a format. -/
def fOfInt (eb mb : Nat) (i : Int) : Nat × Nat := fRoundI eb mb i 0 false

/-- FP32 to I32 (R169): to nearest with ties to even, or truncated. -/
def f32ToI32 (trunc : Bool) (a : Nat) : Nat × Nat :=
  match fDecode 8 23 a with
  | .nan _ => (0, flInvalid)
  | .inf n => (if n then 0x80000000 else 0x7FFFFFFF, flInvalid)
  | .fin n m e =>
    let q0 := shiftI m (-e)
    let d := dropped m (-e) false
    let q := if !trunc && goesUp q0 d then q0 + 1 else q0
    let v := sgn n q
    if (2 ^ 31 - 1 : Int) < v then (0x7FFFFFFF, flInvalid)
    else if v < -(2 ^ 31 : Int) then (0x80000000, flInvalid)
    else (wrapN 32 v, if d != 0 then flInexact else 0)

/-! ## FP32 and FP64 short names -/

/-- Addition of FP32 bits. -/
def add32 (a b : Nat) : Nat × Nat := fAdd 8 23 a b
/-- Division of FP32 bits. -/
def div32 (a b : Nat) : Nat × Nat := fDiv 8 23 a b

/-- Is an FP32 positive, finite and normal (R58)? -/
def posNormal32 (a : Nat) : Bool := a < 2 ^ 31 && fieldN a 23 8 != 0 && fieldN a 23 8 != 255

/-! ## The operand formats of R55 -/

/-- Bits of one element of a format code (R55); 0 for a reserved code. -/
def elemBits (fmt : Nat) : Nat :=
  match fmt with
  | 0 => 4 | 1 => 8 | 2 => 4 | 3 => 8 | 4 => 8 | 5 => 16 | 6 => 16 | 7 => 32 | 8 => 64 | 9 => 32 | 10 => 64
  | _ => 0

/-- The exact value of a code (R55, R57). Integer formats give their codes; a W64 is the integer of its bits, and NaR is no number (R102;
log entry 121). -/
def elemValue (fmt v : Nat) : FVal :=
  match fmt with
  | 0 => .fin false (v % 16) 0
  | 1 => .fin false (v % 256) 0
  | 2 =>
    let m := fieldN v 0 1
    let e := fieldN v 1 2
    if e = 0 then .fin (v.testBit 3) m (-1) else .fin (v.testBit 3) (m + 2) ((e : Int) - 2)
  | 3 =>
    let m := fieldN v 0 3
    let e := fieldN v 3 4
    if e = 15 && m = 7 then .nan false
    else if e = 0 then .fin (v.testBit 7) m (-9) else .fin (v.testBit 7) (m + 8) ((e : Int) - 10)
  | 4 => fDecode 5 2 v
  | 5 => fDecode 5 10 v
  | 6 => fDecode 8 7 v
  | 7 => fDecode 8 23 v
  | 8 => fDecode 11 52 v
  | 9 => let i := signN 32 v; .fin (i < 0) i.natAbs 0
  | 10 => if v % 2 ^ 64 = 2 ^ 63 then .nan false else let i := signN 64 v; .fin (i < 0) i.natAbs 0
  | _ => .fin false 0 0

/-- rne_f32 of s × (c − z) or s × d (R58, R178), with the flags of its one rounding. A stored negative zero is a zero (R55). A value
beyond the largest finite FP32 becomes an infinity, as IEEE 754 rounds it (log entry 121). -/
def decodeReal (fmt v : Nat) (scale zp : Nat) : Nat × Nat :=
  match fDecode 8 23 scale, elemValue fmt v with
  | .fin a m e, .fin b n f =>
    let d := dyAdd (sgn b n) f (-(if fmt ≤ 1 then (zp : Int) else 0)) 0
    fRoundI 8 23 (sgn a m * d.1) (e + d.2) false
  | _, .inf n => (fInf 8 23 n, 0)
  | _, .nan s => (fNaN 8 23, if s then flInvalid else 0)
  | _, .fin _ _ _ => (fNaN 8 23, 0)

/-! ## The quantiser (R64 to R67) -/

/-- What the quantiser writes for one element: bits, clipped, non-finite. -/
structure Quantised where
  bits      : Nat
  clipped   : Bool := false
  nonfinite : Bool := false
  deriving DecidableEq, Repr

/-- `quantise_u` of R65: U8 and U4. -/
def quantiseU (x s z qmax : Nat) (sr : Bool) (u : Nat) : Quantised :=
  match fDecode 8 23 x with
  | .nan _ => { bits := z, clipped := true, nonfinite := true }
  | .inf n => { bits := if n then 0 else qmax, clipped := true, nonfinite := true }
  | .fin _ _ _ =>
    let t := (fDiv 11 52 (fConvert 8 23 11 52 x).1 (fConvert 8 23 11 52 s).1).1
    let y := (fAdd 11 52 t (fOfInt 11 52 z).1).1
    match fDecode 11 52 y with
    | .fin n m e =>
      if n && m != 0 then { bits := 0, clipped := true }
      else
        let c := shiftI m (-e)
        let exact := dropped m (-e) false == 0
        -- y above qmax
        if qmax < c || (c == qmax && !exact) then { bits := qmax, clipped := true }
        else if exact then { bits := c }
        else
          -- frac = y - c, in units of 2^e (e < 0 here)
          let frac := m % 2 ^ e.natAbs
          let one := 2 ^ e.natAbs
          if !sr then { bits := if one < 2 * frac || (2 * frac == one && c % 2 == 1) then c + 1 else c }
          else { bits := if u * one < frac * 256 then c + 1 else c }
    | .inf n => { bits := if n then 0 else qmax, clipped := true }
    | .nan _ => { bits := z, clipped := true, nonfinite := true }

/-- FP16, BF16 and FP32 destinations (R66). -/
def quantiseF (eb mb x : Nat) (sr : Bool) (u : Nat) : Quantised :=
  match fDecode 8 23 x with
  | .nan _ => { bits := fNaN eb mb, clipped := true, nonfinite := true }
  | .inf n => { bits := fSign eb mb n + fMax eb mb, clipped := true, nonfinite := true }
  | .fin n m e =>
    let sub : Int := fEmin eb - mb
    let top : Int := e + bitLen m - 1
    let qe : Int := max (top - mb) sub
    let k : Int := qe - e
    let q0 := shiftI m k
    let d := dropped m k false
    let up := if sr then d != 0 && u * 2 ^ k.toNat < (m % 2 ^ k.toNat) * 256 else goesUp q0 d
    let bits := if m = 0 then 0 else (qe - sub).toNat * 2 ^ mb + if up then q0 + 1 else q0
    let low := if m = 0 then 0 else (qe - sub).toNat * 2 ^ mb + q0
    if fMax eb mb < bits || (sr && (fMax eb mb < low || (low == fMax eb mb && d != 0))) then
      { bits := fSign eb mb n + fMax eb mb, clipped := true }
    else { bits := fSign eb mb n + bits }

/-- Does the quantiser write this format (R64)? -/
def quantFormat (fmt : Nat) : Bool := fmt == 0 || fmt == 1 || fmt == 5 || fmt == 6 || fmt == 7

/-- One element through the quantiser (R64 to R66). -/
def quantise (fmt x s z : Nat) (sr : Bool) (u : Nat) : Quantised :=
  match fmt with
  | 0 => quantiseU x s z 15 sr u
  | 1 => quantiseU x s z 255 sr u
  | 5 => quantiseF 5 10 x sr u
  | 6 => quantiseF 8 7 x sr u
  | _ => quantiseF 8 23 x sr u

end Sys2Proof.Machine
end

