-- ==== Sys2Proof/Machine/Elementary.lean ====
section
/-! DEFINITION. The correctly rounded FP32 functions of R168. Each value is enclosed in a ball (centre and radius in units of
2^-W) by integer arithmetic; the result is the rounding on which both ends of the ball agree. W is 512, and 2048 where 512 bits
do not decide (log entry 10). Special values follow R168 and clause 9.2 of IEEE 754-2019. -/

namespace Sys2Proof.Machine

/-- A ball: |true value - v / 2^W| ≤ r / 2^W. -/
structure Ball where
  v : Int
  r : Nat
  deriving DecidableEq, Repr

/-- An exact integer. -/
def ballInt (w : Nat) (i : Int) : Ball := { v := i * (2 ^ w : Nat), r := 0 }

/-- An exact dyadic number, cut to the precision. -/
def ballDy (w : Nat) (m : Int) (e : Int) : Ball :=
  let k : Int := e + w
  if 0 ≤ k then { v := m * (2 ^ k.toNat : Nat), r := 0 } else { v := m / (2 ^ (-k).toNat : Nat), r := 1 }

/-- Sum. -/
def Ball.add (a b : Ball) : Ball := { v := a.v + b.v, r := a.r + b.r }

/-- Negation. -/
def Ball.neg (a : Ball) : Ball := { a with v := -a.v }

/-- Product. -/
def Ball.mul (w : Nat) (a b : Ball) : Ball :=
  { v := a.v * b.v / (2 ^ w : Nat)
    r := (a.v.natAbs * b.r + b.v.natAbs * a.r + a.r * b.r) / 2 ^ w + 2 }

/-- Quotient by a small positive natural number. -/
def Ball.divNat (a : Ball) (n : Nat) : Ball := { v := a.v / n, r := a.r / n + 2 }

/-- Quotient by a ball whose centre is positive and larger than its radius. -/
def Ball.div (w : Nat) (a b : Ball) : Ball :=
  let bv := b.v.natAbs
  let low := bv - b.r
  { v := a.v * (2 ^ w : Nat) / (bv : Int)
    r := ((a.r * bv + a.v.natAbs * b.r) * 2 ^ w) / (bv * (if low = 0 then 1 else low)) + 2 }

/-- Multiplication by 2^k, or division by 2^(-k). -/
def Ball.scale (a : Ball) (k : Int) : Ball :=
  if 0 ≤ k then { v := a.v * (2 ^ k.toNat : Nat), r := a.r * 2 ^ k.toNat }
  else { v := a.v / (2 ^ (-k).toNat : Nat), r := a.r / 2 ^ (-k).toNat + 2 }

/-- A power series term by term: `step i t` gives term i + 1 from term i. The remainder after the last term is at most the last
term, as every series here has terms that shrink at least by half at the end. -/
def seriesLoop (step : Nat → Ball → Ball) : Nat → Nat → Ball → Ball → Ball
  | 0, _, t, acc => { v := acc.v, r := acc.r + t.v.natAbs + t.r + 1 }
  | n + 1, i, t, acc =>
    let t' := step i t
    seriesLoop step n (i + 1) t' (acc.add t')

/-- The sum of a series from its term 0. -/
def series (n : Nat) (t0 : Ball) (step : Nat → Ball → Ball) : Ball := seriesLoop step n 0 t0 t0

/-- atan (1 / n) for a natural number n ≥ 2, by its alternating series on powers of 1 / n². -/
def atanInvLoop (w n : Nat) : Nat → Nat → Ball → Ball → Ball
  | 0, _, p, acc => { v := acc.v, r := acc.r + p.v.natAbs + p.r + 1 }
  | k + 1, i, p, acc =>
    let p' := (p.divNat (n * n)).neg
    atanInvLoop w n k (i + 1) p' (acc.add (p'.divNat (2 * i + 3)))

/-- See `atanInvLoop`. -/
def atanInv (w n : Nat) : Ball :=
  let p := (ballInt w 1).divNat n
  atanInvLoop w n (w / 4 + 4) 0 p p

/-- π by Machin's formula. -/
def piBall (w : Nat) : Ball :=
  ((atanInv w 5).scale 4).add (((atanInv w 239).scale 2).neg)

/-- 2 atanh z for a ball |z| ≤ 1/3, by its series on powers of z². -/
def atanhLoop (w : Nat) (z2 : Ball) : Nat → Nat → Ball → Ball → Ball
  | 0, _, p, acc => { v := acc.v, r := acc.r + p.v.natAbs + p.r + 1 }
  | k + 1, i, p, acc =>
    let p' := Ball.mul w p z2
    atanhLoop w z2 k (i + 1) p' (acc.add (p'.divNat (2 * i + 3)))

/-- See `atanhLoop`. -/
def atanh2 (w : Nat) (z : Ball) : Ball :=
  (atanhLoop w (Ball.mul w z z) (w / 3 + 4) 0 z z).scale 1

/-- ln 2 = 2 atanh (1/3). -/
def ln2Ball (w : Nat) : Ball := atanh2 w ((ballInt w 1).divNat 3)

/-- ln of a positive dyadic number m × 2^e: with m reduced to [2/3, 4/3) the rest is 2 atanh ((m − 1) / (m + 1)). -/
def lnBall (w m : Nat) (e : Int) : Ball :=
  let l := bitLen m
  -- m = f × 2^l with f in [1/2, 1); f < 2/3 is doubled
  let up := 3 * m < 2 * 2 ^ l
  let n : Int := if up then e + l - 1 else e + l
  let d : Nat := if up then 2 ^ (l - 1) else 2 ^ l
  let z := (ballInt w ((m : Int) - d))
  let z := { v := z.v / ((m + d : Nat) : Int), r := 2 : Ball }
  (atanh2 w z).add { v := (ln2Ball w).v * n, r := (ln2Ball w).r * n.natAbs }

/-- e^x for a ball |x| ≤ 256: x / 2^16 by its series, then sixteen squarings. -/
def expBall (w : Nat) (x : Ball) : Ball :=
  let y := x.scale (-16)
  let t := series (w / 7 + 8) (ballInt w 1) fun i t => (Ball.mul w t y).divNat (i + 1)
  iterN (fun b => Ball.mul w b b) 16 t

/-- sin and cos of a ball |x| ≤ 1. -/
def sinCosBall (w : Nat) (x : Ball) : Ball × Ball :=
  let x2 := Ball.mul w x x
  let n := w / 8 + 8
  (series n x fun i t => ((Ball.mul w t x2).divNat ((2 * i + 2) * (2 * i + 3))).neg,
   series n (ballInt w 1) fun i t => ((Ball.mul w t x2).divNat ((2 * i + 1) * (2 * i + 2))).neg)

/-- sin (k = 0) or cos (k = 1) of a dyadic number, with exact argument reduction by π / 2. -/
def trigBall (w : Nat) (isCos : Bool) (m : Int) (e : Int) : Ball :=
  let big := w + 160
  let x := ballDy big m e
  let h := (piBall big).scale (-1)
  -- the nearest multiple of π / 2
  let n : Int := (2 * x.v + h.v) / (2 * h.v)
  let r : Ball := { v := x.v - n * h.v, r := x.r + n.natAbs * h.r }
  let r := { v := r.v / (2 ^ 160 : Nat), r := r.r / 2 ^ 160 + 2 : Ball }
  let sc := sinCosBall w r
  match ((n + if isCos then 1 else 0) % 4).toNat with
  | 0 => sc.1
  | 1 => sc.2
  | 2 => sc.1.neg
  | _ => sc.2.neg

/-- The error function for |x| < 5, by its Maclaurin series. -/
def erfBall (w : Nat) (m : Int) (e : Int) : Ball :=
  let big := w + 64
  let x := ballDy big m e
  let x2 := Ball.mul big x x
  -- term i without its divisor 2i + 1: (−1)^i x^(2i+1) / i!
  let rec loop : Nat → Nat → Ball → Ball → Ball
    | 0, _, p, acc => { v := acc.v, r := acc.r + p.v.natAbs + p.r + 1 }
    | k + 1, i, p, acc =>
      let p' := ((Ball.mul big p x2).divNat (i + 1)).neg
      loop k (i + 1) p' (acc.add (p'.divNat (2 * i + 3)))
  let s := loop (w / 2 + 80) 0 x x
  let pi := piBall big
  let root : Ball := { v := isqrt (pi.v.natAbs * 2 ^ big), r := pi.r + 2 }
  let v := (Ball.div big s root).scale 1
  { v := v.v / (2 ^ 64 : Nat), r := v.r / 2 ^ 64 + 2 }

/-- Round one end of a ball, strictly inside its unit. -/
def roundEnd (w : Nat) (v : Int) : Nat × Nat :=
  if v = 0 then fRound 8 23 false 1 (-2000) true
  else fRound 8 23 (v < 0) v.natAbs (-(w : Int)) true

/-- The rounding on which both ends of a ball agree. -/
def roundBall (w : Nat) (b : Ball) : Option (Nat × Nat) :=
  let lo := roundEnd w (b.v - b.r - 1)
  let hi := roundEnd w (b.v + b.r + 1)
  if lo = hi then some lo else none

/-- Correct rounding of a function given as a ball at each precision. -/
def roundFun (f : Nat → Ball) : Nat × Nat :=
  match roundBall 512 (f 512) with
  | some r => r
  | none =>
    match roundBall 2048 (f 2048) with
    | some r => r
    | none => roundEnd 2048 (f 2048).v

/-- Is |m × 2^e| at least the natural number n? -/
def dyGe (m : Nat) (e : Int) (n : Nat) : Bool := (n : Int) ≤ (dyAdd m e 0 0).1 / (2 ^ (-(dyAdd m e 0 0).2).toNat : Nat)

/-- A result too large for the format, and one that rounds to zero or to the least subnormal. -/
def fHuge : Nat × Nat := fRound 8 23 false 1 2000 false
/-- See `fHuge`. -/
def fTiny : Nat × Nat := fRound 8 23 false 1 (-2000) true

/-- e^x of a finite non-zero argument. -/
def expFin (n : Bool) (m : Nat) (e : Int) : Nat × Nat :=
  if dyGe m e 256 then (if n then fTiny else fHuge)
  else roundFun fun w => expBall w (ballDy w (sgn n m) e)

/-- Is a dyadic number an integer; and its value. -/
def dyInt (n : Bool) (m : Nat) (e : Int) : Option Int :=
  if 0 ≤ e then some (sgn n m * (2 ^ e.toNat : Nat))
  else if m % 2 ^ (-e).toNat = 0 then some (sgn n (m / 2 ^ (-e).toNat)) else none

/-- 2^x of a finite non-zero argument; exact for integers. -/
def exp2Fin (n : Bool) (m : Nat) (e : Int) : Nat × Nat :=
  if dyGe m e 256 then (if n then fTiny else fHuge)
  else match dyInt n m e with
    | some i => fRound 8 23 false 1 i false
    | none => roundFun fun w => expBall w (Ball.mul w (ballDy w (sgn n m) e) (ln2Ball w))

/-- ln of a positive argument; exact at 1. -/
def lnFin (m : Nat) (e : Int) : Nat × Nat :=
  if dyInt false m e = some 1 then (0, 0) else roundFun fun w => lnBall w m e

/-- The power of two that a positive dyadic number is, if it is one. -/
def dyLog (m : Nat) (e : Int) : Option Int := if 2 ^ Nat.log2 m = m then some (e + Nat.log2 m) else none

/-- log2 of a positive argument; exact at the powers of two. -/
def log2Fin (m : Nat) (e : Int) : Nat × Nat :=
  match dyLog m e with
  | some i => fRoundI 8 23 i 0 false
  | none => roundFun fun w => Ball.div w (lnBall w m e) (ln2Ball w)

/-- tanh of a finite non-zero argument: 1 − 2 / (e^(2x) + 1), odd. -/
def tanhFin (n : Bool) (m : Nat) (e : Int) : Nat × Nat :=
  let r := if dyGe m e 64 then fRound 8 23 false (2 ^ 40 - 1) (-40) true
    else roundFun fun w =>
      (ballInt w 1).add ((Ball.div w (ballInt w 2) ((expBall w (ballDy w m (e + 1))).add (ballInt w 1))).neg)
  (r.1 + fSign 8 23 n, r.2)

/-- 1 ÷ (1 + e^−x) of a finite non-zero argument. -/
def sigmoidFin (n : Bool) (m : Nat) (e : Int) : Nat × Nat :=
  if dyGe m e 256 then (if n then fTiny else fRound 8 23 false (2 ^ 40 - 1) (-40) true)
  else roundFun fun w =>
    let x := expBall w (ballDy w (sgn n m) e)
    -- e^x / (1 + e^x) keeps its precision for negative arguments
    Ball.div w x (x.add (ballInt w 1))

/-- erf of a finite non-zero argument, odd. -/
def erfFin (n : Bool) (m : Nat) (e : Int) : Nat × Nat :=
  let r := if dyGe m e 5 then fRound 8 23 false (2 ^ 40 - 1) (-40) true else roundFun fun w => erfBall w m e
  (r.1 + fSign 8 23 n, r.2)

/-- The functions of FFUN by CODE: 0 EXP, 1 EXP2, 2 LN, 3 LOG2, 4 TANH, 5 SIGMOID, 6 ERF, 7 SIN, 8 COS (R168, R222). -/
def ffun32 (code a : Nat) : Nat × Nat :=
  match fDecode 8 23 a with
  | .nan s => (fNaN 8 23, if s then flInvalid else 0)
  | .inf n =>
    match code with
    | 0 => (if n then 0 else fInf 8 23 false, 0)
    | 1 => (if n then 0 else fInf 8 23 false, 0)
    | 2 => if n then (fNaN 8 23, flInvalid) else (fInf 8 23 false, 0)
    | 3 => if n then (fNaN 8 23, flInvalid) else (fInf 8 23 false, 0)
    | 4 => (fSign 8 23 n + 0x3F800000, 0)
    | 5 => (if n then 0 else 0x3F800000, 0)
    | 6 => (fSign 8 23 n + 0x3F800000, 0)
    | _ => (fNaN 8 23, flInvalid)
  | .fin n m e =>
    if m = 0 then
      match code with
      | 0 => (0x3F800000, 0)
      | 1 => (0x3F800000, 0)
      | 2 => (fInf 8 23 true, flDivZero)
      | 3 => (fInf 8 23 true, flDivZero)
      | 5 => (0x3F000000, 0)
      | 8 => (0x3F800000, 0)
      | _ => (fZero 8 23 n, 0)
    else
      match code with
      | 0 => expFin n m e
      | 1 => exp2Fin n m e
      | 2 => if n then (fNaN 8 23, flInvalid) else lnFin m e
      | 3 => if n then (fNaN 8 23, flInvalid) else log2Fin m e
      | 4 => tanhFin n m e
      | 5 => sigmoidFin n m e
      | 6 => erfFin n m e
      | 7 => roundFun fun w => trigBall w false (sgn n m) e
      | _ => roundFun fun w => trigBall w true (sgn n m) e

end Sys2Proof.Machine
end

