-- ==== Sys2Proof/Machine/Draw.lean ====
section
/-! DEFINITION. The draw function and its counters (R189 to R195). -/

namespace Sys2Proof.Machine

/-- The first round constant (R189). -/
def drawRc0 : BitVec 32 := 0x5A3C96E1
/-- The round-constant increment (R189). -/
def drawRc1 : BitVec 32 := 0x2F71D48B

/-- `quarter` of R189. -/
def quarter (a b c d : BitVec 32) : BitVec 32 × BitVec 32 × BitVec 32 × BitVec 32 :=
  let a := a + b
  let d := (d ^^^ a).rotateLeft 13
  let c := c + d
  let b := (b ^^^ c).rotateLeft 7
  let a := a + b
  let d := (d ^^^ a).rotateLeft 17
  let c := c + d
  let b := (b ^^^ c).rotateLeft 9
  (a, b, c, d)

/-- A 32-bit word of a 128-bit value. -/
def word32 (v : Key128) (i : Nat) : BitVec 32 := (v >>> (32 * (i % 4))).truncate 32

/-- The rounds of R189 from round r on. -/
def drawLoop (key : Key128) : Nat → Nat → BitVec 32 → BitVec 32 × BitVec 32 × BitVec 32 × BitVec 32 →
    BitVec 32 × BitVec 32 × BitVec 32 × BitVec 32
  | 0, _, _, x => x
  | n + 1, r, rc, x =>
    let q := quarter (x.1 + word32 key r) (x.2.1 ^^^ word32 key (r + 1)) (x.2.2.1 + word32 key (r + 2)) (x.2.2.2 ^^^ rc)
    drawLoop key n (r + 1) (rc + drawRc1) (q.2.1, q.2.2.1, q.2.2.2, q.1)

/-- The draw function (R189). -/
def draw (key ctr : Key128) : Key128 :=
  let x := drawLoop key 10 0 drawRc0 (word32 ctr 0, word32 ctr 1, word32 ctr 2, word32 ctr 3)
  (x.2.2.2 + word32 key 3) ++ ((x.2.2.1 + word32 key 2) ++ ((x.2.1 + word32 key 1) ++ (x.1 + word32 key 0)))

/-- The counter of a draw (R193). -/
def drawCtr (purpose : Nat) (wide : Bool) (stream : BitVec 16) (step row col : Nat) : Key128 :=
  BitVec.ofNat 128
    ((purpose % 16) * 2 ^ 124 + (if wide then 2 ^ 123 else 0) + stream.toNat * 2 ^ 96 + (step % 2 ^ 48) * 2 ^ 48 +
      (row % 2 ^ 24) * 2 ^ 24 + (col % 2 ^ 24) / (if wide then 4 else 16))

/-- The 8-bit share of an element (R195, SHARE = 0). -/
def drawByte (key : Key128) (purpose : Nat) (stream : BitVec 16) (step row col : Nat) : Nat :=
  fieldN (draw key (drawCtr purpose false stream step row col)).toNat (8 * (col % 16)) 8

/-- The 32-bit share of an element (R195, SHARE = 1). -/
def drawWord (key : Key128) (purpose : Nat) (stream : BitVec 16) (step row col : Nat) : Nat :=
  fieldN (draw key (drawCtr purpose true stream step row col)).toNat (32 * (col % 4)) 32

end Sys2Proof.Machine
end

