-- ==== Sys2Proof/Machine/Memory.lean ====
section
/-! DEFINITION. The memory system (R238 to R258): the Reed-Solomon code, codewords with their tag bytes and key slots,
placement, translation, and the accesses of the engines and of the firmware. Data is held as the requester of its slot sees
it (log entry 6). -/

namespace Sys2Proof.Machine

/-! ## The code of R241 and R242 -/

/-- Eight steps of the product of R241. -/
def gfLoop : Nat → Nat → Nat → Nat → Nat
  | 0, _, _, p => p
  | n + 1, a, b, p =>
    let p := if b % 2 = 1 then p ^^^ a else p
    let a' := (a * 2) % 256
    gfLoop n (if 128 ≤ a then a' ^^^ 0x1D else a') (b / 2) p

/-- Product in GF(2^8) with polynomial 0x11D (R241). -/
def gfMul (a b : Nat) : Nat := gfLoop 8 (a % 256) (b % 256) 0

/-- A power of α = 2. -/
def gfPow : Nat → Nat
  | 0 => 1
  | n + 1 => gfMul (gfPow n) 2

/-- The check bytes of 129 data and tag bytes (R241). -/
def checkBytes (u : List Nat) : Nat × Nat × Nat :=
  u.foldl (fun r b =>
    let f := b ^^^ r.1
    (r.2.1 ^^^ gfMul f 0x07, r.2.2 ^^^ gfMul f 0x0E, gfMul f 0x08)) (0, 0, 0)

/-- A syndrome of an error pattern: the code is linear, so the stored codeword adds nothing (R242). Byte b of a codeword is the
coefficient of x^(131 - b). -/
def syndrome (j : Nat) (err : List (Nat × Byte)) : Nat :=
  err.foldl (fun s e => s ^^^ gfMul e.2.toNat (gfPow (j * (131 - e.1) % 255))) 0

/-- What a read makes of a codeword whose bytes carry an error pattern (R242): the errors that remain, or none when the
codeword is uncorrectable. -/
inductive Decoded where
  | good (left : List (Nat × Byte)) (corrected : Bool)
  | uncorrectable
  deriving DecidableEq, Repr

/-- The decision of R242. -/
def rsDecode (err : List (Nat × Byte)) : Decoded :=
  let s0 := syndrome 0 err
  let s1 := syndrome 1 err
  let s2 := syndrome 2 err
  if s0 = 0 && s1 = 0 && s2 = 0 then .good err false
  else if s0 != 0 && s1 != 0 && s2 != 0 && gfMul s1 s1 == gfMul s0 s2 then
    match (List.range 132).find? fun d => gfMul s0 (gfPow d) == s1 with
    | some d => .good (((131 - d, BitVec.ofNat 8 s0) :: err).filter fun e =>
        (((131 - d, BitVec.ofNat 8 s0) :: err).foldl (fun (a : Byte) g => if g.1 = e.1 then a ^^^ g.2 else a) 0) != 0) true
    | none => .uncorrectable
  else .uncorrectable

/-! ## Addresses (R246, R247) -/

/-- The quadrant of a device physical address. -/
def dpaQuad (dpa : Nat) : Nat := fieldN dpa 41 2

/-- The offset of a device physical address in its quadrant. -/
def dpaOff (dpa : Nat) : Nat := fieldN dpa 0 41

/-- The global boundary in bytes (R247). -/
def State.gBytes (s : State) : Nat := min (s.params.g * 2 ^ 30) Config.qLimit

/-- `place` of R247: home quadrant, quadrant channel index, codeword on the channel, byte. -/
def place (dpa g : Nat) : Nat × Nat × Nat × Nat :=
  let off := dpaOff dpa
  let q := if g ≤ off then (dpaQuad dpa + (off - g) / 4096) % 4 else dpaQuad dpa
  let k := off / 4096
  (q, k % 96, k / 96 * 32 + off / 128 % 32, off % 128)

/-- The key of a byte of host memory: each function has its own addresses (R315). -/
def hostKey (f a : Nat) : Nat := f * 2 ^ 64 + a

/-- Where host memory, and so the slower tier, stands in the model's addresses, beyond every DPA (R248, R318): byte a of function f has the
address `tierBase + hostKey f a`. -/
def tierBase : Nat := 2 ^ 43

/-- An address of a function with ATS enabled has been translated: its translation is cached, among the 4096 latest (R315; log entry
30). -/
def State.noteAts (s : State) (f a : Nat) : State :=
  let e := (f, a / 4096)
  if f ∉ s.host.ats || e ∈ s.host.atc then s
  else { s with host := { s.host with atc := (s.host.atc ++ [e]).drop (s.host.atc.length - 4095) } }

/-- Ask for host memory of a function (R315, R316): with ATS enabled its address is translated, and the requests that R316 lists (`cached`) go
over CXL.cache where that is enabled; every other request goes over CXL.io, with ATS disabled untranslated. -/
def State.hostAsk (s : State) (f a n : Nat) (write cached : Bool) : State :=
  let t := s.host.ats.contains f
  let o : Out := if t && cached && s.host.cache then (if write then .wrCur f a n else .rdCurr f a n)
    else if write then .ioWrite f a n t else .ioRead f a n t
  (s.noteAts f a).emit o

/-- A write into host memory of a function. -/
def State.hostWrite (s : State) (f a : Nat) (d : Bytes) (cached : Bool) : State :=
  ({ s with hostMem := Tab.fill s.hostMem 0 (hostKey f a) d } : State).hostAsk f a d.length true cached

/-- The global channel number of a DPA (R16); 384, which no channel has, for the slower tier. -/
def State.channelOf (s : State) (dpa : Nat) : Nat :=
  if tierBase ≤ dpa then 384
  else
    let p := place dpa s.gBytes
    96 * p.1 + p.2.1

/-- The device physical address of a codeword of a quadrant-local channel, and of the global region, is found by searching
the four quadrants at the same offset: the mapping only permutes the quadrant (R247). -/
def State.dpaAt (s : State) (ch cw : Nat) : Option Nat :=
  let off := (cw / 32 * 96 + ch % 96) * 4096 + cw % 32 * 128
  (List.range 4).findSome? fun q =>
    let dpa := q * 2 ^ 41 + off
    if (place dpa s.gBytes).1 = ch / 96 && off < Config.qLimit then some dpa else none

/-- Is a DPA valid: below Q_LIMIT, in a quadrant whose memory is available, and on a channel of such a quadrant (R240, R246, R247)? -/
def State.dpaOk (s : State) (dpa : Nat) : Bool :=
  dpa < 2 ^ 43 && dpaOff dpa < Config.qLimit && s.memUp (dpaQuad dpa) && s.memUp (place dpa s.gBytes).1

/-- Why an access to byte h of the CXL.mem window is turned away before it reaches memory, or the DPA it reaches (R319, R321): 0 outside the
window, 1 unmapped, 4 keeper mode. -/
def State.windowDpa (s : State) (h : Nat) : Nat ⊕ Nat :=
  let e := Tab.look s.host.frames 0 (h / 2 ^ 30)
  let dpa := field e 0 13 * 2 ^ 30 + h % 2 ^ 30
  if s.params.cxlMem ≤ h / 2 ^ 30 then .inl 0
  else if s.board.stage == .keeper then .inl 4
  else if !bitAt e 63 || !s.dpaOk dpa then .inl 1
  else .inr dpa

/-- The byte of the window that a host address names: with CXL.mem enabled and the HDM decoder committed, the address less its base (R319). -/
def State.windowByte (s : State) (a : Nat) : Option Nat :=
  let h := s.host
  if h.memEnable && h.hdmOn && h.hdmBase ≤ a && a - h.hdmBase < s.params.cxlMem * 2 ^ 30 then some (a - h.hdmBase) else none

/-- The frame of a host address, and what a request there comes to; 0xFFFF stands for no frame, outside the decoder (R325). -/
def State.windowAt (s : State) (a : Nat) : Nat × (Nat ⊕ Nat) :=
  match s.windowByte a with
  | none => (0xFFFF, .inl 0)
  | some h => (h / 2 ^ 30, s.windowDpa h)

/-! ## Codewords (R243 to R245, R255) -/

/-- 128 bytes of ones: a poisoned codeword's data (R243). -/
def ones128 : Bytes := List.replicate 128 0xFF

/-- The tag byte of the codeword of an address. -/
def Mem.tag (m : Mem) (dpa : Nat) : TagByte := Tab.look m.tags {} (dpa / 128)

/-- What a requester with a slot sees of a codeword: its bytes, whether they are poison, whether the slots differ (R245). -/
def Mem.readCw (m : Mem) (slot dpa : Nat) : Bytes × Bool × Bool :=
  let t := m.tag dpa
  if t.slot != slot then (ones128, true, true)
  else if t.poison then (ones128, true, false)
  else (Tab.span m.data 0 (dpa / 128 * 128) 128, false, false)

/-- Store bytes in one codeword with a slot (R243, R245, R255); `poison` writes the codeword poisoned. Answers whether the write
was discarded for its slot. -/
def Mem.writeCw (m : Mem) (slot dpa : Nat) (d : Bytes) (poison : Bool) : Mem × Bool :=
  let t := m.tag dpa
  let cw := dpa / 128 * 128
  if t.slot != 0 && t.slot != slot then (m, true)
  else if poison then
    ({ m with data := Tab.fill m.data 0 cw ones128, tags := Tab.put m.tags {} (dpa / 128) { poison := true, slot } }, false)
  else if t.poison && d.length < 128 then
    ({ m with tags := Tab.put m.tags {} (dpa / 128) { poison := true, slot } }, false)
  else
    ({ m with data := Tab.fill m.data 0 dpa d, tags := Tab.put m.tags {} (dpa / 128) { poison := false, slot } }, false)

/-- The same for the memory of the module and, beyond it, for the slower tier, whose lines carry poison but no slot (R318). -/
def State.readCw (s : State) (slot dpa : Nat) : Bytes × Bool × Bool :=
  if dpa < tierBase then s.mem.readCw slot dpa
  else if (s.mem.tag dpa).poison then (ones128, true, false)
  else (Tab.span s.hostMem 0 ((dpa - tierBase) / 128 * 128) 128, false, false)

/-- See `State.readCw`. -/
def State.writeCw (s : State) (slot dpa : Nat) (d : Bytes) (poison : Bool) : State × Bool :=
  if dpa < tierBase then
    let r := s.mem.writeCw slot dpa d poison
    ({ s with mem := r.1 }, r.2)
  else
    let keep := poison || ((s.mem.tag dpa).poison && d.length < 128)
    ({ s with mem := { s.mem with tags := Tab.put s.mem.tags {} (dpa / 128) { poison := keep } }
              hostMem := if keep then s.hostMem else Tab.fill s.hostMem 0 (dpa - tierBase) d }, false)

/-- Bytes as they stand, in the module's memory or in the slower tier. -/
def State.bytesAt (s : State) (dpa n : Nat) : Bytes :=
  if dpa < tierBase then Tab.span s.mem.data 0 dpa n else Tab.span s.hostMem 0 (dpa - tierBase) n

/-- The request for host memory that an access to the slower tier makes (R316). -/
def State.tierAsk (s : State) (dpa n : Nat) (write : Bool) : State :=
  if dpa < tierBase then s else s.hostAsk ((dpa - tierBase) / 2 ^ 64) ((dpa - tierBase) % 2 ^ 64) n write true

/-- Poison a codeword in place: it keeps its slot (R243, R254). -/
def Mem.poisonCw (m : Mem) (dpa : Nat) : Mem :=
  { m with data := Tab.fill m.data 0 (dpa / 128 * 128) ones128,
           tags := Tab.put m.tags {} (dpa / 128) { poison := true, slot := (m.tag dpa).slot } }

/-- Write a range of whole codewords with zero data, POISON = 0 and slot 0 (R258). -/
def Mem.scrub (m : Mem) (base n : Nat) : Mem :=
  { m with data := Tab.clear m.data base n, tags := Tab.clear m.tags (base / 128) (n / 128)
           upsets := Tab.clear m.upsets (base / 128) (n / 128) }

/-- The parts of a byte range that lie in one codeword each: (start, length). -/
def pieces (a n : Nat) : List (Nat × Nat) :=
  (List.range ((a % 128 + n + 127) / 128)).map fun i =>
    let lo := max a ((a / 128 + i) * 128)
    let hi := min (a + n) ((a / 128 + i + 1) * 128)
    (lo, hi - lo)

/-! ## Translation (R248 to R250) -/

/-- What an access does. -/
inductive Access where
  | read | write | fetch
  deriving DecidableEq, Repr

/-- Is an entry that is not a leaf well formed (R248)? -/
def Pte.table (e : Pte) : Bool := e.v && !e.leaf && e.slot == 0 && !e.w && !e.x && !e.tier

/-- May an access go through a leaf (R250)? -/
def Pte.permits (e : Pte) (a : Access) (leat : Bool) : Bool :=
  e.v && e.leaf && (!e.tier || leat) && match a with
    | .read => true
    | .write => e.w
    | .fetch => e.x

/-- The leaf that maps a virtual address, with the size of its page (R248). -/
def Ctx.walk (cx : Ctx) (va : Nat) : Option (Pte × Nat) :=
  if Config.aperture ≤ va then none
  else
    let l0 := Tab.look cx.ptL0 {} (va / 2 ^ 39)
    let l1 := Tab.look cx.ptL1 {} (va / 2 ^ 30)
    if !l0.table then none
    else if l1.v && l1.leaf then some (l1, 2 ^ 30)
    else if !l1.table then none
    else
      let l2 := Tab.look cx.ptL2 {} (va / 2 ^ 21)
      if l2.v && l2.leaf then some (l2, 2 ^ 21) else none

/-- Translate one virtual address: DPA and slot (R250). -/
def State.translate (s : State) (x : Nat) (a : Access) (leat : Bool) (va : Nat) : Option (Nat × Nat) :=
  match (s.ctx x).walk va with
  | none => none
  | some (e, size) =>
    let dpa := e.addr * 4096 + va % size
    if e.permits a leat && (e.tier || s.dpaOk dpa) then some (dpa, e.slot) else none

/-- Translate a byte range: (DPA, length, slot) for each codeword, or none if any part fails (R250). -/
def State.translateAll (s : State) (x : Nat) (a : Access) (leat : Bool) (va n : Nat) : Option (List (Nat × Nat × Nat)) :=
  (pieces va n).mapM fun p => (s.translate x a leat p.1).map fun d => (d.1, p.2, d.2)

/-! ## Accesses -/

/-- The context that a page belongs to (R254). -/
def PageUse.owner : PageUse → Option Nat
  | .firmware x => some x
  | .pool x => some x
  | .gen x _ => some x
  | .coll _ => none
  | .collReplica _ => none
  | .countTable x => some x

/-- The context whose page covers a DPA, or for which the page is reserved (R254). -/
def State.pageOwner (s : State) (dpa : Nat) : Option Nat := (Tab.opt s.mem.pages (dpa / Config.page)).bind PageUse.owner

/-- Count into counter n of the context that owns the page of a DPA (R263). -/
def State.bumpOwner (s : State) (dpa n : Nat) : State :=
  match s.pageOwner dpa with
  | some y => s.bumpCtx y n 1
  | none => s

/-- MEM_KEY_MISMATCH, once for each command, or once for each context and turn when it serves no command (R245). -/
def State.noteMismatch (s : State) (x : Option Nat) (h : Option Word) (dpa : Nat) : State :=
  match h.bind s.cmd with
  | some c =>
    if c.keyMismatch then s
    else (s.modCmd c.handle fun c => { c with keyMismatch := true }).raise
      { code := 0x0402, ctx := x, handle := some c.handle, unit := 7, address := dpa }
  | none =>
    let o := s.pageOwner dpa
    if o.getD 256 ∈ s.mem.mismTurn then s
    else ({ s with mem := { s.mem with mismTurn := s.mem.mismTurn ++ [o.getD 256] } } : State).raise
      { code := 0x0402, ctx := o, unit := 7, address := dpa }

/-- A discarded write or mismatched read (R245): counted each time, and reported. -/
def State.keyMismatch (s : State) (x : Option Nat) (h : Option Word) (dpa : Nat) : State :=
  ((s.bumpChannel (s.channelOf dpa) 3 1).bumpOwner dpa 32).noteMismatch x h dpa

/-- Back-invalidate the host's lines of a codeword before the device reads or writes it (R322). -/
def State.backInvalidate (s : State) (dpa : Nat) : State :=
  let lines := s.host.snoop.filter fun l => l / 2 = dpa / 128
  if lines.isEmpty then s
  else { s with host := { s.host with snoop := s.host.snoop.filter fun l => l / 2 != dpa / 128 },
                out := s.out ++ lines.map Out.invalidate }

/-- The virtual address at which a context maps a device page by a 2 MiB leaf. -/
def Ctx.vaOfPage (cx : Ctx) (page : Nat) : Option Nat :=
  (cx.ptL2.find? fun e => e.2.v && e.2.leaf && !e.2.tier && e.2.addr * 4096 / Config.page == page).map fun e => e.1 * Config.page

/-- Mark the folios that hold a virtual address as POISONED (R305). -/
def Ctx.poisonFolio (cx : Ctx) (va : Nat) : Ctx :=
  let mark : Folio → Folio := fun f => if !f.spilled && f.base ≤ va && va < f.base + 0x10000 then { f with poisoned := true } else f
  { cx with seqs := cx.seqs.map fun q => (q.1, { q.2 with cat := q.2.cat.map fun e => (e.1, mark e.2) }) }

/-- Mark the shards that a stored offset belongs to as bad (R280, R298). -/
def GenBody.badAt (b : GenBody) (off : Nat) : GenBody :=
  let hit := (b.spans.filter fun t => t.2.1 ≤ off && off < t.2.1 + t.2.2).map fun t => t.1
  { b with badShards := hit.foldl (fun l i => addNew i l) b.badShards }

/-- The stored offset that a page and a byte in it hold. -/
def GenBody.offsetOf (b : GenBody) (dpa : Nat) : Option Nat :=
  (b.pages.find? fun e => e.2 == dpa / Config.page).map fun e => e.1 * Config.page + dpa % Config.page

/-- Poison has been found, or written, in the codeword of an address: its folio is marked (R305), or its weight shard (R280,
R298), and counted as SHARDS_BAD (R306). -/
def State.foundPoison (s : State) (dpa : Nat) : State :=
  match Tab.opt s.mem.pages (dpa / Config.page) with
  | some (.pool x) =>
    match (s.ctx x).vaOfPage (dpa / Config.page) with
    | some va => s.modCtx x fun cx => cx.poisonFolio (va + dpa % Config.page)
    | none => s
  | some (.gen x g) =>
    let bad : Gen → GenBody := fun n => (n.body.offsetOf dpa).elim n.body n.body.badAt
    let new := ((Tab.opt (s.ctx x).gens g).map fun n => (bad n).badShards.length - n.body.badShards.length).getD 0
    (s.modCtx x fun cx => { cx with gens := Tab.change cx.gens g fun n => { n with body := bad n } }).bumpFw x 13 new
  | some (.coll id) =>
    { s with colls := Tab.change s.colls id fun n => { n with body := (n.body.offsetOf dpa).elim n.body n.body.badAt } }
  | _ => s

/-! ## Errors in stored bytes (R242, R253, R254, R256) -/

/-- Retire the 2 MiB range of a DPA (R256). -/
def State.retire (s : State) (dpa : Nat) : State :=
  let pg := dpa / Config.page
  if pg ∈ s.mem.retired then s
  else
    let s : State := { s with mem := { s.mem with retired := s.mem.retired ++ [pg] },
                              fw := { s.fw with fieldDirty := true } }
    s.raise { code := 0x0404, ctx := s.pageOwner dpa, unit := 7, index := (s.channelOf dpa) / 8, address := dpa }

/-- What a codeword of 128 data bytes reads as when an error pattern is left in it: under a key, the 16-byte blocks it touches decrypt to
anything (R244). -/
def leftOn (slot fresh : Nat) (left : List (Nat × Byte)) (b : Bytes) : Bytes :=
  let hit := left.filter fun e => e.1 < 128
  (List.range 128).map fun i =>
    if slot != 0 && hit.any (fun e => e.1 / 16 = i / 16) then Config.freeByte (fresh + i)
    else hit.foldl (fun (a : Byte) e => if e.1 = i then a ^^^ e.2 else a) (b.getD i 0)

/-- A corrected error is counted; the third in one codeword in 24 hours retires its range (R253, R256). -/
def State.countCorrected (s : State) (dpa : Nat) : State :=
  let s := s.bumpChannel (s.channelOf dpa) 0 1
  let log := (s.mem.ceLog.filter fun e => s.now < e.2 + 24 * ticksHour) ++ [(dpa / 128, s.now)]
  let s : State := { s with mem := { s.mem with ceLog := log } }
  if 3 ≤ (log.filter fun e => e.1 = dpa / 128).length then s.retire dpa else s

/-- What a correction that is wrong, or that sees nothing, leaves in a codeword: data bytes, and the tag byte (R242, R244). -/
def State.leave (s : State) (dpa : Nat) (left : List (Nat × Byte)) : State :=
  let m := s.mem
  let cw := dpa / 128 * 128
  let t := (m.tag dpa).slot + if (m.tag dpa).poison then 128 else 0
  let t' := left.foldl (fun a e => if e.1 = 128 then a ^^^ e.2.toNat else a) t
  if left.isEmpty then s
  else
    { s with mem := { m with data := Tab.fill m.data 0 cw (leftOn (m.tag dpa).slot s.fresh left (Tab.span m.data 0 cw 128)),
                             tags := Tab.put m.tags {} (dpa / 128) { poison := decide (128 ≤ t'), slot := t' % 128 } },
             fresh := s.fresh + 128 }

/-- A read of a codeword whose stored bytes carry an error pattern (R242, R253, R254): a corrected one is written back and counted;
an uncorrectable one is poisoned and reported with its requester, by its UNIT code (R467), and its page is retired (R256). -/
def State.applyErrors (s : State) (requester dpa : Nat) (err : List (Nat × Byte)) : State :=
  let ch := s.channelOf dpa
  let s := s.backInvalidate dpa
  match rsDecode err with
  | .uncorrectable =>
    let s := ((({ s with mem := s.mem.poisonCw dpa } : State).bumpChannel ch 1 1).foundPoison dpa).bumpOwner dpa 31
    let s := s.raise { code := 0x0401, ctx := s.pageOwner dpa, unit := 7, index := ch / 8, address := dpa / 128 * 128,
                       detail := [ch, requester] }
    s.retire dpa
  | .good left corrected => if corrected then (s.leave dpa left).countCorrected dpa else s.leave dpa left

/-- Two error patterns in one codeword. -/
def joinErrors (a b : List (Nat × Byte)) : List (Nat × Byte) :=
  (((a ++ b).map fun e => e.1).eraseDups.map fun i =>
    (i, (a ++ b).foldl (fun (v : Byte) e => if e.1 = i then v ^^^ e.2 else v) 0)).filter fun e => e.2 != 0

/-- Stored bytes of a codeword change where they stand (R241, R242): the next read finds it. -/
def State.upset (s : State) (dpa : Nat) (err : List (Nat × Byte)) : State :=
  let e := joinErrors (Tab.look s.mem.upsets [] (dpa / 128)) (err.filter fun e => e.1 < 132)
  if tierBase ≤ dpa then s
  else { s with mem := { s.mem with upsets := if e.isEmpty then Tab.del s.mem.upsets (dpa / 128) else Tab.ins s.mem.upsets (dpa / 128) e } }

/-- The controller reads a codeword for a requester: what its stored bytes carry is corrected or poisoned (R242). -/
def State.settleCw (s : State) (requester dpa : Nat) : State :=
  match Tab.opt s.mem.upsets (dpa / 128) with
  | none => s
  | some err =>
    ({ s with mem := { s.mem with upsets := Tab.del s.mem.upsets (dpa / 128) } } : State).applyErrors requester dpa err

/-! ## Requests -/

/-- Who makes an access: its UNIT code (R467), the core whose engine it is, and whether it is a leat stream or move of 4 KiB or more (R251). -/
structure Req where
  unit : Nat := 12
  core : Option Nat := none
  wide : Bool := false
  deriving DecidableEq, Repr

/-- Is the requester the leat (R250)? -/
def isLeat (r : Req) : Bool := r.unit == 2

/-- Does a DPA lie where no memory is: at or above Q_LIMIT, or in a quadrant that is unavailable (R240, R246)? -/
def State.gone (s : State) (dpa : Nat) : Bool := decide (dpa < tierBase) && !s.dpaOk dpa

/-- Read bytes of one codeword: the bytes and whether they are poison. Firmware that reads where no memory is finds poison (log entry 128). -/
def State.readPiece (s : State) (x : Option Nat) (h : Option Word) (q : Req) (p : Nat × Nat × Nat) : State × Bytes × Bool :=
  if s.gone p.1 then (s, List.replicate p.2.1 0xFF, true)
  else
    let s := ((s.backInvalidate p.1).settleCw q.unit p.1).tierAsk p.1 p.2.1 false
    let r := s.readCw p.2.2 p.1
    let s := if r.2.2 then s.keyMismatch x h p.1 else s
    let s := if r.2.1 then (s.bumpChannel (s.channelOf p.1) 2 1).foundPoison p.1 else s
    (s, (r.1.drop (p.1 % 128)).take p.2.1, r.2.1)

/-- A 4 KiB chunk that the leat of a core has not read from in its latest requests is counted (R251). -/
def State.countChunk (s : State) (c k : Nat) : State :=
  if k ∈ (s.core c).chunks then s
  else (s.modCore c fun e => { e with chunks := (e.chunks ++ [k]).drop ((e.chunks.length + 1) - 8) }).bumpChannel (s.channelOf (k * 4096)) 8 1

/-- Count the granules of an access served from the narrow queue, or the 4 KiB chunks of a leat's wide request (R251, R263). -/
def State.countQueue (s : State) (q : Req) (l : List (Nat × Nat × Nat)) : State :=
  match q.wide, q.core with
  | true, some c => (l.map fun p => p.1 / 4096).eraseDups.foldl (fun s k => s.countChunk c k) s
  | _, _ => l.foldl (fun s p => s.bumpChannel (s.channelOf p.1) 7 1) s

/-- Read translated pieces in order: the bytes, and whether any was poison. -/
def State.readPieces (s : State) (x : Option Nat) (h : Option Word) (q : Req) (l : List (Nat × Nat × Nat)) : State × Bytes × Bool :=
  l.foldl (fun a p =>
    let r := a.1.readPiece x h q p
    (r.1, a.2.1 ++ r.2.1, a.2.2 || r.2.2)) (s.countQueue q l, [], false)

/-- Write the bytes of one codeword. The controller reads it first: for the bytes that stay, and for the slot it is stored under (R245,
R251; log entry 128). -/
def State.writePiece (s : State) (x : Option Nat) (h : Option Word) (q : Req) (p : Nat × Nat × Nat) (d : Bytes) (poison : Bool) : State :=
  if s.gone p.1 then s
  else
    let r := (((s.backInvalidate p.1).settleCw q.unit p.1).tierAsk p.1 d.length true).writeCw p.2.2 p.1 d poison
    if r.2 then r.1.keyMismatch x h p.1 else if poison then r.1.foundPoison p.1 else r.1

/-- Write translated pieces in order. -/
def State.writePieces (s : State) (x : Option Nat) (h : Option Word) (q : Req) (l : List (Nat × Nat × Nat)) (d : Bytes)
    (poison : Bool) : State :=
  (l.foldl (fun (a : State × Bytes) p => (a.1.writePiece x h q p (a.2.take p.2.1) poison, a.2.drop p.2.1)) (s.countQueue q l, d)).1

/-- Read a range of a context's memory: none if it does not translate (R250). -/
def State.vread (s : State) (x : Nat) (h : Option Word) (q : Req) (va n : Nat) : Option (State × Bytes × Bool) :=
  (s.translateAll x .read (isLeat q) va n).map fun l => s.readPieces (some x) h q l

/-- Write a range of a context's memory: none if it does not translate (R250). -/
def State.vwrite (s : State) (x : Nat) (h : Option Word) (q : Req) (va : Nat) (d : Bytes) (poison : Bool) : Option State :=
  (s.translateAll x .write (isLeat q) va d.length).map fun l => s.writePieces (some x) h q l d poison

/-- Read a range of a context's memory where poison, too, leaves nothing to be read: with the effects of the reads. -/
def State.vget (s : State) (x : Nat) (h : Option Word) (q : Req) (va n : Nat) : State × Option Bytes :=
  match s.vread x h q va n with
  | none => (s, none)
  | some r => (r.1, if r.2.2 then none else some r.2.1)

/-- The effects of a read of a range of a context's memory, where it translates. -/
def State.touch (s : State) (x : Nat) (h : Option Word) (q : Req) (va n : Nat) : State :=
  match s.vread x h q va n with
  | none => s
  | some r => r.1

/-- What a range of a context's memory holds, without any effect: for bytes whose read has had its effects by `State.touch`. -/
def State.vpeek (s : State) (x : Nat) (va n : Nat) : Option Bytes :=
  match s.translateAll x .read false va n with
  | none => none
  | some l =>
    let r := l.map fun p => let c := s.readCw p.2.2 p.1; ((c.1.drop (p.1 % 128)).take p.2.1, c.2.1)
    if r.any fun a => a.2 then none else some (r.flatMap fun a => a.1)

/-- Read a range of device memory by DPA with a slot (firmware accesses). -/
def State.pread (s : State) (x : Option Nat) (h : Option Word) (q : Req) (slot dpa n : Nat) : State × Bytes × Bool :=
  s.readPieces x h q ((pieces dpa n).map fun p => (p.1, p.2, slot))

/-- Write a range of device memory by DPA with a slot (firmware accesses). -/
def State.pwrite (s : State) (x : Option Nat) (h : Option Word) (slot dpa : Nat) (d : Bytes) (poison : Bool) : State :=
  s.writePieces x h {} ((pieces dpa d.length).map fun p => (p.1, p.2, slot)) d poison

/-- Poison the codewords that a byte range of a context touches, where it translates with write permission (R351). -/
def State.vpoison (s : State) (x : Nat) (h : Option Word) (q : Req) (va n : Nat) : State :=
  (pieces va n).foldl (fun s p =>
    match s.translate x .write (isLeat q) p.1 with
    | none => s
    | some d => s.writePiece (some x) h q (d.1, p.2, d.2) [] true) s

/-! ## Table walks (R248, R250, R254) -/

/-- The number of a context's table: 0 at the root, 1 + i at level 1, 513 + i at level 2. -/
def Ctx.tableAt (cx : Ctx) (n : Nat) : Option Nat := (Tab.opt cx.tables n).bind fun i => (cx.tablePages[i / 512]?).map fun p =>
  p * Config.page + i % 512 * 4096

/-- The DPA of a catalogue entry. -/
def Ctx.entryDpa (cx : Ctx) (f : Folio) : Option Nat :=
  (cx.catPages[f.entryAt / 65536]?).map fun p => p * Config.page + f.entryAt % 65536 * 32

/-- The DPAs of the entries that a walk of an address reads, level by level. -/
def Ctx.walkReads (cx : Ctx) (va : Nat) : List Nat :=
  if Config.aperture ≤ va then []
  else
    let l0 := Tab.look cx.ptL0 {} (va / 2 ^ 39)
    let l1 := Tab.look cx.ptL1 {} (va / 2 ^ 30)
    let at_ : Nat → Nat → List Nat := fun n i => (cx.tableAt n).elim [] fun t => [t + 8 * (i % 512)]
    at_ 0 (va / 2 ^ 39) ++ (if !l0.table then [] else at_ (1 + va / 2 ^ 39) (va / 2 ^ 30) ++
      if !l1.table then [] else at_ (513 + va / 2 ^ 30) (va / 2 ^ 21))

/-- A core reads the entries of a walk in order; false once one is poison (R254). -/
def State.readEntries (s : State) (c x unit : Nat) (l : List Nat) : State × Bool :=
  l.foldl (fun (a : State × Bool) d =>
    if a.2 then
      let q := (a.1.countQueue {} [(d, 8, 0)]).readPiece (some x) (some (s.core c).handle) { unit } (d, 8, 0)
      (q.1, !q.2.2)
    else a) (s, true)

/-- Keep a translation: the 256 of a core give way oldest first (log entry 129). -/
def State.keepTlb (s : State) (c page : Nat) : State :=
  s.modCore c fun k => { k with tlb := (k.tlb ++ [page]).drop ((k.tlb.length + 1) - 256) }

/-- A core walks the tables for a page whose translation it does not hold; false where the walk meets poison (R254). -/
def State.walkPage (s : State) (c x unit page : Nat) : State × Bool :=
  if page ∈ (s.core c).tlb then (s, true)
  else
    let r := s.readEntries c x unit ((s.ctx x).walkReads (page * Config.page))
    if r.2 && ((s.ctx x).walk (page * Config.page)).isSome then (r.1.keepTlb c page, true) else r

/-- The walks for a range. -/
def State.walkFor (s : State) (c x unit va n : Nat) : State × Bool :=
  if n = 0 then (s, true)
  else (List.range ((va + n - 1) / Config.page - va / Config.page + 1)).foldl (fun (a : State × Bool) i =>
    if a.2 then a.1.walkPage c x unit (va / Config.page + i) else a) (s, true)

/-- The cores of a context forget their translations (R250). -/
def State.dropTlb (s : State) (x : Nat) : State :=
  (s.ctx x).placed.foldl (fun s c => s.modCore c fun k => { k with tlb := [] }) s

end Sys2Proof.Machine
end

