-- ==== Sys2Proof/Machine/Scratch.lean ====
section
/-! DEFINITION. The scratchpad (R125 to R145): rows with their poison, the gather buffer, and the sluice slots. A physical core
acts on the rows and slots of the logical core it serves. -/

namespace Sys2Proof.Machine

/-! ## Slot state words (R140, R141) -/

/-- The 16-bit state word (R140). -/
def Slot.word (l : Slot) : Nat := (if l.full then 0x8000 else 0) + l.c * 256 + l.f * 16 + l.d

/-- A slot from its state word. -/
def slotOf (w : Nat) : Slot :=
  { full := w.testBit 15, c := fieldN w 8 4, f := fieldN w 4 4, d := fieldN w 0 4 }

/-- Arm (F, D) (R141). -/
def Slot.arm (f d : Nat) : Slot := { full := false, c := f, f, d }

/-- Fill, in EMPTY (R141). -/
def Slot.fill (l : Slot) : Slot :=
  if l.full then l else if l.c ≤ 1 then { l with full := true, c := l.d } else { l with c := l.c - 1 }

/-- Drain, in FULL (R141). -/
def Slot.drain (l : Slot) : Slot :=
  if !l.full then l else if l.c ≤ 1 then { l with full := false, c := l.f } else { l with c := l.c - 1 }

/-- A logical slot of a logical core; a slot newly given reads EMPTY with F = D = 1 (R138). -/
def LCore.slot (l : LCore) (n : Nat) : Slot := Tab.look l.slots {} n

/-- Set a slot. -/
def LCore.setSlot (l : LCore) (n : Nat) (v : Slot) : LCore := { l with slots := Tab.put l.slots {} n v }

/-- Apply an update that its slot's state allows; otherwise it waits (R141). -/
def LCore.apply (l : LCore) (u : Nat × Bool) : LCore :=
  if (l.slot u.1).full == u.2 then { l with owed := l.owed ++ [u] }
  else l.setSlot u.1 (if u.2 then (l.slot u.1).fill else (l.slot u.1).drain)

/-- Check the updates that wait again, in their order, until none of them is allowed (R143, R145). -/
def LCore.recheck (l : LCore) : Nat → LCore
  | 0 => l
  | f + 1 =>
    if l.owed.any fun u => (l.slot u.1).full != u.2 then (l.owed.foldl LCore.apply { l with owed := [] }).recheck f else l

/-- The updates that wait, after a slot has changed. -/
def LCore.settle (l : LCore) : LCore := l.recheck (l.owed.length + 1)

/-- Update slots by fills or drains, one update each; every update is applied exactly once (R142, R145; log entry 124). -/
def LCore.update (l : LCore) (write : Bool) (slots : List Nat) : LCore :=
  (slots.foldl (fun l n => l.apply (n, write)) l).settle

/-- Arm a slot (R141): it takes effect at once. -/
def LCore.armSlot (l : LCore) (n f d : Nat) : LCore := (l.setSlot n (Slot.arm f d)).settle

/-! ## The serving core -/

/-- The logical core that a physical core serves; an idle core serves an empty one. -/
def State.lcoreOf (s : State) (c : Nat) : LCore :=
  match s.ownerOf c with
  | some (x, k) => s.lcore x k
  | none => {}

/-- Change the logical core that a physical core serves. -/
def State.modLcoreOf (s : State) (c : Nat) (f : LCore → LCore) : State :=
  match s.ownerOf c with
  | some (x, k) => s.modLcore x k f
  | none => s

/-- The shelf count S of the context that a core serves (R135). -/
def State.shelvesOf (s : State) (c : Nat) : Nat :=
  match s.ownerOf c with
  | some (x, _) => (s.ctx x).req.shelves
  | none => 0

/-! ## Rows and the gather buffer (R131 to R134, R139) -/

/-- Write back the dirty bytes of the gather entry of a row; the entry stays valid (R134). -/
def State.writeBackRow (s : State) (c row : Nat) : State :=
  match (s.core c).gather.find? fun e => e.row == row && !e.dirty.isEmpty with
  | none => s
  | some e =>
    let s := s.modLcoreOf c fun l => l.absorb [e]
    let s := s.modCore c fun k => { k with gather := modWhere (fun g => g.row == row) (fun g => { g with dirty := [] }) k.gather }
    s.bumpCore c 3 1

/-- Write back every dirty gather entry (R134). -/
def State.writeBackAll (s : State) (c : Nat) : State :=
  ((s.core c).gather.map fun e => e.row).foldl (fun s r => s.writeBackRow c r) s

/-- Count into counter n of R153 for a context's shelves, at the core that holds them. -/
def State.bumpShelf (s : State) (x k n m : Nat) : State :=
  let s := match (s.lcore x k).home with
    | some c => s.bump (ctrAddr 1 256 c n) m
    | none => s
  s.bumpCtx x (ctxNoOfCore n) m

/-- Find the bit errors of a row of a logical core at a read: each word with a correctable one is corrected and counted; an uncorrectable one
poisons the row and raises SCRATCH_UE with the context, core, bank and logical row, and the command that the core runs if it does (R139). -/
def State.scanShelf (s : State) (x k row : Nat) (h : Option Word) : State :=
  let l := s.lcore x k
  let n := (l.soft.filter fun i => i / 64 == row).length
  let s := if n = 0 then s else
    (s.modLcore x k fun l => { l with soft := l.soft.filter fun i => i / 64 != row }).bumpShelf x k 9 n
  if l.bad.any fun i => i / 64 == row then
    let s := s.modLcore x k fun l => { l with bad := l.bad.filter fun i => i / 64 != row, poison := addNew row l.poison }
    (s.bumpShelf x k 10 1).raise { code := 0x0203, ctx := some x, handle := h, core := l.home, detail := [row % 16, row] }
  else s

/-- The same for a row of the logical core that a physical core serves. -/
def State.scanRow (s : State) (c row : Nat) : State :=
  match s.ownerOf c with
  | some (x, k) => s.scanShelf x k row (some (s.core c).handle)
  | none => s

/-- Words with errors that a write of n bytes leaves in place: those that it does not write whole. -/
def wordsLeft (l : List Nat) (addr n : Nat) : List Nat := l.filter fun i => 8 * i < addr || addr + n < 8 * i + 8

/-- A whole-row read by an engine: the row's bytes and whether it is poisoned (R134, R139). -/
def State.readRow (s : State) (c row : Nat) : State × Bytes × Bool :=
  let s := (s.writeBackRow c row).scanRow c row
  let l := s.lcoreOf c
  (s, Tab.span l.rows 0 (512 * row) 512, decide (row ∈ l.poison))

/-- Rows in order from a first row: their bytes, and whether any was poisoned. -/
def State.readRows (s : State) (c row n : Nat) : State × Bytes × Bool :=
  (List.range n).foldl (fun a i =>
    let r := a.1.readRow c (row + i)
    (r.1, a.2.1 ++ r.2.1, a.2.2 || r.2.2)) (s, [], false)

/-- A masked row write by an engine at a byte address within one row: the gather entry of the row is written back and
invalidated first; a write of the whole row sets or clears its poison, a narrower one can only set it (R134, R139). -/
def State.writeRow (s : State) (c addr : Nat) (d : Bytes) (poison : Bool) : State :=
  let row := addr / 512
  let s := s.writeBackRow c row
  let s := s.modCore c fun k => { k with gather := k.gather.filter fun g => g.row != row }
  s.modLcoreOf c fun l =>
    { l with
      rows := Tab.fill l.rows 0 addr d
      poison := if poison then addNew row l.poison
                else if 512 ≤ d.length then l.poison.filter (· != row) else l.poison
      bad := wordsLeft l.bad addr d.length
      soft := wordsLeft l.soft addr d.length }

/-- The parts of a scratchpad range that lie in one row each: (address, length). -/
def rowPieces (a n : Nat) : List (Nat × Nat) :=
  (List.range ((a % 512 + n + 511) / 512)).map fun i =>
    let lo := max a ((a / 512 + i) * 512)
    let hi := min (a + n) ((a / 512 + i + 1) * 512)
    (lo, hi - lo)

/-- A write of bytes by masked row writes, row by row. -/
def State.writeScratch (s : State) (c addr : Nat) (d : Bytes) (poison : Bool) : State :=
  ((rowPieces addr d.length).foldl (fun (a : State × Bytes) p =>
    (a.1.writeRow c p.1 (a.2.take p.2) poison, a.2.drop p.2)) (s, d)).1

/-- A read of bytes by whole-row reads: bytes and poison. -/
def State.readScratch (s : State) (c addr n : Nat) : State × Bytes × Bool :=
  (rowPieces addr n).foldl (fun a p =>
    let r := a.1.readRow c (p.1 / 512)
    (r.1, a.2.1 ++ (r.2.1.drop (p.1 % 512)).take p.2, a.2.2 || r.2.2)) (s, [], false)

/-- Poison rows (R351, R92). -/
def State.poisonRows (s : State) (c row n : Nat) : State :=
  s.modLcoreOf c fun l => { l with poison := (List.range n).foldl (fun p i => addNew (row + i) p) l.poison }

/-- Make the entry of a row the most recently used, allocating it if need be: a full buffer first writes back its least recently
used entry (R133). -/
def State.touchEntry (s : State) (c row : Nat) : State :=
  match (s.core c).gather.find? fun e => e.row == row with
  | some e => s.modCore c fun k => { k with gather := (k.gather.filter fun g => g.row != row) ++ [e] }
  | none =>
    let s := match (s.core c).gather with
      | old :: _ => if 16 ≤ (s.core c).gather.length then
          (s.writeBackRow c old.row).modCore c fun k => { k with gather := k.gather.drop 1 } else s
      | [] => s
    s.modCore c fun k => { k with gather := k.gather ++ [{ row, bytes := [], dirty := [] }] }

/-- A narrow store through the gather buffer, within one row (R133). -/
def State.narrowStore (s : State) (c addr : Nat) (d : Bytes) : State :=
  let row := addr / 512
  let b := addr % 512
  let keys := (List.range d.length).map fun i => b + i
  let put : GEntry → GEntry := fun g =>
    { g with bytes := (keys.zip d).foldl (fun t e => Tab.ins t e.1 e.2) g.bytes,
             dirty := keys.foldl (fun l i => addNew i l) g.dirty }
  (s.touchEntry c row).modCore c fun k => { k with gather := modWhere (fun g => g.row == row) put k.gather }

/-- Store bytes narrowly, row by row (trailers, status records). -/
def State.narrowStores (s : State) (c addr : Nat) (d : Bytes) : State :=
  ((rowPieces addr d.length).foldl (fun (a : State × Bytes) p =>
    (a.1.narrowStore c p.1 (a.2.take p.2), a.2.drop p.2)) (s, d)).1

/-- A narrow load through the gather buffer, within one row: its bytes, or none if the row that had to be read is poisoned
(R133, R139). -/
def State.narrowLoad (s : State) (c addr n : Nat) : State × Option Bytes :=
  let row := addr / 512
  let b := addr % 512
  let have_ := match (s.core c).gather.find? fun e => e.row == row with
    | some e => e.bytes
    | none => []
  if (List.range n).all fun i => (Tab.opt have_ (b + i)).isSome then
    ((s.touchEntry c row).bumpCore c 1 1, some ((List.range n).map fun i => Tab.look have_ 0 (b + i)))
  else
    let s := (s.scanRow c row).bumpCore c 2 1
    let l := s.lcoreOf c
    if row ∈ l.poison then (s, none)
    else
      let bytes := Tab.span l.rows 0 (512 * row) 512
      let full := (List.range 512).map fun i => (i, (Tab.opt have_ i).getD (bytes.getD i 0))
      let keep : GEntry → GEntry := fun g => { g with bytes := full }
      let s := (s.touchEntry c row).modCore c fun k => { k with gather := modWhere (fun g => g.row == row) keep k.gather }
      (s, some ((List.range n).map fun i => Tab.look full 0 (b + i)))

/-- The control core's whole-row read of a parameter block (R208): its bytes and poison. -/
def State.readBlock (s : State) (c addr n : Nat) : State × Bytes × Bool :=
  let r := s.readRow c (addr / 512)
  (r.1, (r.2.1.drop (addr % 512)).take n, r.2.2)

/-! ## Sluice words and checks (R142 to R144, R215) -/

/-- A sluice word (R215): mode, number of slots, first slot. -/
def sluiceOf (w : Nat) : Sluice := { mode := fieldN w 30 2, count := fieldN w 12 6 + 1, first := fieldN w 0 12 }

/-- Does a sluice word keep the layout of R215: reserved bits zero, and under PLAIN no range? -/
def sluiceLayout (w : Nat) : Bool := fieldN w 18 12 == 0 && (fieldN w 30 2 != 0 || w == 0)

/-- The slots that a sluice word names. -/
def Sluice.slots (u : Sluice) : List Nat := if u.mode = 0 then [] else (List.range u.count).map fun i => u.first + i

/-- Does the range of a sluice word lie below 16 × S (R215)? -/
def Sluice.inRange (u : Sluice) (shelves : Nat) : Bool := u.mode == 0 || u.first + u.count ≤ 16 * shelves

/-- The outcome of the check of R143. -/
inductive Checked where
  | pass | stall (slot : Nat) | notReady (slot : Nat)
  deriving DecidableEq, Repr

/-- The check of R143: a read wants every named slot FULL, a write every one EMPTY. -/
def LCore.check (l : LCore) (u : Sluice) (write : Bool) : Checked :=
  match u.slots.find? fun n => (l.slot n).full == write with
  | none => .pass
  | some n => if u.mode = 3 then .notReady n else .stall n

/-- The update of an access that has passed: fills or drains under UPDATE and TRY (R142, R144). -/
def State.sluiceUpdate (s : State) (c : Nat) (u : Sluice) (write : Bool) : State :=
  if 2 ≤ u.mode then s.modLcoreOf c fun l => l.update write u.slots else s

/-- The check at the core that serves an access. -/
def State.sluiceCheck (s : State) (c : Nat) (u : Sluice) (write : Bool) : Checked := (s.lcoreOf c).check u write

/-- Does a scratchpad range lie in the shelves of the core's context (R125, R130)? -/
def State.inShelves (s : State) (c addr n : Nat) : Bool := addr + n ≤ s.shelvesOf c * 65536

/-- Forget the stall ticks of an access that has passed (R146). -/
def State.clearStall (s : State) (c e : Nat) : State := s.modCore c fun k => { k with stallTicks := Tab.del k.stallTicks e }

end Sys2Proof.Machine
end

