-- ==== Sys2Proof/Machine/Issue.lean ====
section
/-! DEFINITION. The control core's issue of one instruction (R205 to R209, R230 to R232): the fields of the instruction word,
scalar registers, the conditions under which an instruction issues, traps, and stalls. -/

namespace Sys2Proof.Machine

/-! ## Fields of the formats (R209) -/

/-- Opcode. -/
def opOf (w : Word) : Nat := field w 56 8
/-- rd of R, I, M, S and VS; ra of B. -/
def fRd (w : Word) : Nat := field w 51 5
/-- ra of R, I, M and S; rb of B. -/
def fRa (w : Word) : Nat := field w 46 5
/-- rb of R. -/
def fRb (w : Word) : Nat := field w 41 5
/-- imm of I, zero-extended. -/
def fImm (w : Word) : Word := BitVec.ofNat 64 (field w 0 32)
/-- imm of I, sign-extended. -/
def fSimm (w : Word) : Word := wordOf (sfield w 0 32)
/-- ra of U. -/
def fUra (w : Word) : Nat := field w 48 5

/-- The reserved bits of each format (R209). -/
def resR : Nat := 2 ^ 41 - 1
/-- Format I. -/
def resI : Nat := (2 ^ 14 - 1) * 2 ^ 32
/-- Format B. -/
def resB : Nat := (2 ^ 14 - 1) * 2 ^ 32
/-- Format M. -/
def resM : Nat := 0x1F * 2 ^ 24
/-- Format S. -/
def resS : Nat := 0xFFFFFF * 2 ^ 12
/-- Format U. -/
def resU : Nat := 2 ^ 48 - 1

/-! ## Scalar registers (R206: writes to s0 are discarded) -/

/-- A scalar register of a core. -/
def CoreSt.reg (k : CoreSt) (n : Nat) : Word := if n = 0 then 0 else Tab.look k.regs 0 n

/-- A scalar register. -/
def State.reg (s : State) (c n : Nat) : Word := (s.core c).reg n

/-- Write a scalar register of a core; values still to arrive there from earlier instructions are then not kept (R206). -/
def CoreSt.setReg (k : CoreSt) (n : Nat) (v : Word) : CoreSt :=
  if n = 0 then k
  else { k with regs := Tab.put k.regs 0 n v
                loads := modWhere (fun (l : Load) => l.rd == n) (fun l => { l with rd := 0 }) k.loads
                sums := modWhere (fun (l : Nat × Word) => l.1 == n) (fun l => (0, l.2)) k.sums
                vq := modWhere (fun (v : VecOp) => v.opc == 0xE0 && fRd v.word == n)
                  (fun v => { v with word := v.word &&& ~~~(0x1F#64 <<< 51) }) k.vq }

/-- Write a scalar register. -/
def State.setReg (s : State) (c n : Nat) (v : Word) : State := s.modCore c fun k => k.setReg n v

/-- Is a register's value still to arrive (R206, R174)? -/
def CoreSt.awaits (k : CoreSt) (n : Nat) : Bool :=
  n != 0 && ((k.loads.any fun l => l.rd == n) || (k.sums.any fun l => l.1 == n) ||
    (k.vq.any fun v => v.opc == 0xE0 && fRd v.word == n))

/-- The PC as an instruction sees it: a code offset (R214). -/
def State.pc (s : State) (c : Nat) : Nat := (s.core c).pc

/-- Set the PC, modulo 2^64. -/
def State.setPc (s : State) (c : Nat) (p : Word) : State := s.modCore c fun k => { k with pc := p.toNat }

/-- Go on at the next instruction. -/
def State.advance (s : State) (c : Nat) : State := s.modCore c fun k => { k with pc := k.pc + 8 }

/-! ## Issue -/

/-- Does the control core of c issue instructions: it runs a kernel, is not stalled, and has reached neither EXIT nor a precise fault (R206,
R230, R237)? -/
def State.canIssue (s : State) (c : Nat) : Bool :=
  s.coreOn c && c < 128 && (s.core c).owner.isSome && (s.core c).stall.isNone &&
    (s.core c).exiting.isNone && !(s.core c).draining

/-- Does core c issue this word, with no register it reads still to arrive (R206)? -/
def State.ready (s : State) (c op : Nat) (w : Word) (reads : List Nat) : Bool :=
  s.canIssue c && opOf w == op && !(reads.any fun n => (s.core c).awaits n)

/-- Codewords that the instruction buffer of 64 KiB holds (R234). -/
def ibufWords : Nat := 512

/-- Fill the instruction buffer with the codeword of an address: the walk, the read over the narrow path, and its fault: not mapped for code, or
poisoned (R250, R254). Codewords give way oldest first (R234; log entry 129). -/
def State.fillBuffer (s : State) (c x : Nat) (h : Word) (va : Nat) : State × Option Nat :=
  let w := s.walkFor c x 1 va 8
  match if w.2 then w.1.translate x .fetch false va else none with
  | none => (w.1, some 0x0109)
  | some d =>
    let r := w.1.readPieces (some x) (some h) { unit := 1, core := some c } [(d.1 / 128 * 128, 128, d.2)]
    if r.2.2 then (r.1, some 0x010A)
    else (r.1.modCore c fun k => { k with ibuf := (k.ibuf ++ [va / 128]).drop ((k.ibuf.length + 1) - ibufWords) }, none)

/-- The fetch of the instruction at the PC, and its fault: outside the code or not aligned (R205, R231), or one of the read that
brings a codeword into the instruction buffer (R234). -/
def State.fetchStep (s : State) (c : Nat) : State × Option Nat :=
  let k := s.core c
  if k.pc % 8 != 0 || k.codeLen < k.pc + 8 then (s, some 0x0101)
  else match k.owner with
    | none => (s, none)
    | some (x, _) =>
      match (s.ctx x).kernel k.handle with
      | none => (s, none)
      | some r =>
        let va := r.image + r.codeOff + k.pc
        if va / 128 ∈ k.ibuf then (s, none) else s.fillBuffer c x k.handle va

/-- What the fetch leaves. -/
def State.fetched (s : State) (c : Nat) : State := (s.fetchStep c).1

/-- The fault of the fetch. -/
def State.fetchFault (s : State) (c : Nat) : Option Nat := (s.fetchStep c).2

/-- The vector opcodes (R222). -/
def vecListed (op : Nat) : Bool :=
  (0xA0 ≤ op && op ≤ 0xAC) || (0xB0 ≤ op && op ≤ 0xBA) || op == 0xBC || (0xC0 ≤ op && op ≤ 0xC4) || (0xC8 ≤ op && op ≤ 0xD0) ||
    (0xD4 ≤ op && op ≤ 0xDC) || op == 0xE0 || (0xE4 ≤ op && op ≤ 0xE6) || op == 0xE8 || op == 0xE9 || (0xEC ≤ op && op ≤ 0xEE)

/-- The opcodes of the instruction tables (R210, R222). -/
def listedOp (op : Nat) : Bool :=
  (0x01 ≤ op && op ≤ 0x12) || op == 0x21 || (0x2A ≤ op && op ≤ 0x2F) || op == 0x31 || op == 0x32 || op == 0x38 || (0x40 ≤ op && op ≤ 0x45) ||
    op == 0x48 || op == 0x49 || (0x50 ≤ op && op ≤ 0x53) || (0x60 ≤ op && op ≤ 0x65) || (0x70 ≤ op && op ≤ 0x74) || op == 0x80 ||
    (0x90 ≤ op && op ≤ 0x92) || vecListed op || op == 0xF0

/-- ILLEGAL_INSTR (R205). -/
def State.illegal (s : State) (c : Nat) : State := s.ctlFault c 0x0101 0

/-- The fetch of an instruction, and what follows it where it does not fault. -/
def State.fetchThen (s : State) (c : Nat) (go : State → State) : State :=
  match s.fetchFault c with
  | some code => (s.fetched c).fault c 1 0 code (faultStatus code) (code != 0x010A) (some (s.pc c)) 0 []
  | none => go (s.fetched c)

/-- The issue of one instruction: fetch faults first, then an opcode that no table lists or a reserved field that is not zero (R205), then its
meaning. -/
def control (op res : Nat) (reads : List Nat) (body : State → State) (c : Nat) (w : Word) (s : State) :
    Host.Outcome State Fault Refusal :=
  if listedOp (opOf w) then
    when (s.ready c op w reads) s fun s => s.fetchThen c fun s => if clearIn w.toNat res then body s else s.illegal c
  else when (s.canIssue c) s fun s => s.fetchThen c fun s => s.illegal c

/-- SLUICE_NOT_READY raised by the control core: a trap, TRAP_NESTED, or a fault (R232). -/
def State.notReady (s : State) (c slot : Nat) : State :=
  let k := s.core c
  if k.inHandler then s.ctlFault c 0x010E slot
  else if k.trapVec != 0 then
    s.modCore c fun k => { k with trapPc := BitVec.ofNat 64 k.pc
                                  trapCause := BitVec.ofNat 64 (slot * 65536 + 0x0104)
                                  inHandler := true, pc := k.trapVec.toNat }
  else s.ctlFault c 0x0104 slot

/-- Stall the control core at its current instruction, to be issued again (R143, R206). -/
def State.stallAt (s : State) (c op : Nat) (w : Word) : State :=
  (s.modCore c fun k => { k with stall := some { opc := op, word := w } }).clearStall c 0

/-- The check of one slot by the control core (R143), and what follows it. -/
def State.sluiceGate (s : State) (c op : Nat) (w : Word) (u : Sluice) (write : Bool) (go : State → State) : State :=
  match s.sluiceCheck c u write with
  | .pass => go s
  | .notReady n => s.notReady c n
  | .stall _ => s.stallAt c op w

/-! ## The end of a kernel on its core (R237) -/

/-- The kernel ends on its core with an exit code: the gather buffer is written back, and the end is noted for the command
(R134, R237). -/
def State.endOnCore (s : State) (c code : Nat) : State :=
  let s := s.writeBackAll c
  match s.ownerOf c with
  | none => s
  | some (x, k) =>
    let h := (s.core c).handle
    (s.modKernel x h fun r => { r with ended := r.ended ++ [(k, code)] }).modCore c fun k =>
      { k with running := false, exiting := none }

end Sys2Proof.Machine
end

