-- ==== Sys2Proof/Machine/Operands.lean ====
section
/-! DEFINITION. Tensor descriptors (R54 to R61), reading and writing tensor rows in context memory or in the scratchpad
aperture (R209), the quantiser's writes (R64 to R68, R194) and its statistics (R68 to R71). -/

namespace Sys2Proof.Machine

/-! ## Descriptors -/

/-- The fields of a 32-byte descriptor (R59, R60). -/
def descOf (b : Bytes) : Desc :=
  let ctrl := leAt b 0x18 4
  { base := fieldN (leAt b 0 8) 0 48, rows := fieldN (leAt b 8 4) 0 24, cols := fieldN (leAt b 0x0C 4) 0 24
    stride := leAt b 0x10 4, scale := BitVec.ofNat 32 (leAt b 0x14 4), zp := fieldN ctrl 16 8, sr := ctrl.testBit 8
    fmt := fieldN ctrl 0 4, tag := fieldN (leAt b 0x1C 4) 0 16 }

/-- Are the reserved fields of a descriptor zero (R59, R60)? -/
def descReserved (b : Bytes) : Bool :=
  let ctrl := leAt b 0x18 4
  fieldN (leAt b 0 8) 48 16 == 0 && fieldN (leAt b 8 4) 24 8 == 0 && fieldN (leAt b 0x0C 4) 24 8 == 0 &&
    fieldN ctrl 24 8 == 0 && fieldN ctrl 9 7 == 0 && fieldN ctrl 4 4 == 0 && fieldN (leAt b 0x1C 4) 16 16 == 0

/-- The scale and zero-point rule of R58. -/
def scaleOk (fmt : Nat) (scale : BitVec 32) (zp : Nat) : Bool :=
  if fmt = 0 then posNormal32 scale.toNat && zp ≤ 15
  else if fmt = 1 then posNormal32 scale.toNat && zp ≤ 255
  else if fmt ≤ 4 then posNormal32 scale.toNat && zp == 0
  else scale == 0x3F800000 && zp == 0

/-- Bytes of one row of `cols` elements (R56, R61). -/
def rowLen (fmt cols : Nat) : Nat := (cols * elemBits fmt + 7) / 8

/-- The element size as R61 takes it: one byte for the 4-bit formats. -/
def elemSize (fmt : Nat) : Nat := max 1 (elemBits fmt / 8)

/-- Is a descriptor valid (R61)? -/
def descValid (b : Bytes) : Bool :=
  let d := descOf b
  descReserved b && elemBits d.fmt != 0 && d.rows != 0 && d.cols != 0 && rowLen d.fmt d.cols ≤ d.stride &&
    d.base % elemSize d.fmt == 0 && d.stride % elemSize d.fmt == 0 && scaleOk d.fmt d.scale d.zp

/-- Does a context virtual address lie in the scratchpad aperture (R209)? -/
def inAperture (va : Nat) : Bool := Config.aperture ≤ va && va < Config.vaEnd

/-- The scratchpad address of an aperture address. -/
def scratchOf (va : Nat) : Nat := va % 2 ^ 24

/-- Who makes an access: a core (whose context's memory and scratchpad it reaches), or a command of a context with no core
(COPY and FILL reach only memory). -/
structure Agent where
  ctx  : Nat
  core : Option Nat
  cmd  : Option Word
  /-- its UNIT code (R467), and whether its work is a leat stream or move of 4 KiB or more (R251) -/
  unit : Nat := 12
  wide : Bool := false
  deriving DecidableEq, Repr

/-- The agent that an engine of a core is, by its UNIT code. -/
def State.agent (s : State) (c unit : Nat) : Agent :=
  { ctx := ((s.ownerOf c).map fun o => o.1).getD 0, core := some c, cmd := some (s.core c).handle, unit }

/-- An agent as a requester of memory. -/
def Agent.req (a : Agent) : Req := { unit := a.unit, core := a.core, wide := a.wide }

/-- The table walks that an access of a core makes first; false where one meets poison (R250, R254). -/
def State.walkAhead (s : State) (a : Agent) (va n : Nat) : State × Bool :=
  match a.core with
  | some c => if inAperture va then (s, true) else s.walkFor c a.ctx a.unit va n
  | none => (s, true)

/-- Bytes read for an agent: poison marked, or the fault that stops it. -/
inductive Fetched where
  | ok (d : Bytes) (poison : Bool)
  | bad (code addr : Nat)
  deriving DecidableEq, Repr

/-- Read a byte range for an agent (R209, R130, R250). -/
def State.load (s : State) (a : Agent) (va n : Nat) : State × Fetched :=
  if inAperture va then
    match a.core with
    | none => (s, .bad 0x0109 va)
    | some c =>
      if s.inShelves c (scratchOf va) n then
        let r := s.readScratch c (scratchOf va) n
        (r.1, .ok r.2.1 r.2.2)
      else (s, .bad 0x0102 (scratchOf va))
  else
    let w := s.walkAhead a va n
    match if w.2 then w.1.vread a.ctx a.cmd a.req va n else none with
    | none => (w.1, .bad 0x0109 va)
    | some r => (r.1, .ok r.2.1 r.2.2)

/-- May an agent write a byte range: the fault that stops it, if any. -/
def State.storeFault (s : State) (a : Agent) (va n : Nat) : Option (Nat × Nat) :=
  if inAperture va then
    match a.core with
    | none => some (0x0109, va)
    | some c => if s.inShelves c (scratchOf va) n then none else some (0x0102, scratchOf va)
  else if (s.walkAhead a va n).2 && (s.translateAll a.ctx .write (isLeat a.req) va n).isSome then none else some (0x0109, va)

/-- Write a byte range that `storeFault` has passed; `poison` poisons the codewords or rows touched. -/
def State.store (s : State) (a : Agent) (va : Nat) (d : Bytes) (poison : Bool) : State :=
  if inAperture va then
    match a.core with
    | none => s
    | some c => s.writeScratch c (scratchOf va) d poison
  else
    let s := (s.walkAhead a va d.length).1
    (s.vwrite a.ctx a.cmd a.req va d poison).getD s

/-- The controller has read the codewords of a range that is about to be written in part (R251). -/
def State.settleRange (s : State) (a : Agent) (va n : Nat) : State :=
  if inAperture va then s
  else (pieces va n).foldl (fun s p => match s.translate a.ctx .write (isLeat a.req) p.1 with
    | some d => s.settleCw a.unit d.1
    | none => s) s

/-- One byte as it stands, for the nibbles that share it: part of the access that writes it (R56, R251). -/
def State.peekByte (s : State) (a : Agent) (va : Nat) : Byte :=
  if inAperture va then
    match a.core with
    | none => 0
    | some c => Tab.look (s.lcoreOf c).rows 0 (scratchOf va)
  else match s.translate a.ctx .read (isLeat a.req) va with
    | none => 0
    | some d => ((s.readCw d.2 d.1).1).getD (d.1 % 128) 0

/-- A descriptor as it stands, for an operation that has not yet read it. -/
def State.peekDescAt (s : State) (a : Agent) (va : Nat) : Desc := descOf ((List.range 32).map fun i => s.peekByte a (va + i))

/-- A descriptor as an agent finds it. -/
inductive DescRead where
  | ok (d : Desc)
  | bad (code addr : Nat)
  deriving DecidableEq, Repr

/-- Read and validate a descriptor at an address (R59, R61); a poisoned one faults as a poisoned read does. -/
def State.readDesc (s : State) (a : Agent) (va : Nat) : State × DescRead :=
  if va % 32 != 0 then (s, .bad 0x0107 va)
  else
    let r := s.load a va 32
    match r.2 with
    | .bad code addr => (r.1, .bad code addr)
    | .ok b poison =>
      if poison then (r.1, .bad 0x010A va)
      else if descValid b then (r.1, .ok (descOf b)) else (r.1, .bad 0x0107 va)

/-! ## Rows of elements -/

/-- The code of an element of a row of bytes. -/
def rowCode (fmt : Nat) (b : Bytes) (j : Nat) : Nat :=
  if elemBits fmt = 4 then fieldN (leAt b (j / 2) 1) (4 * (j % 2)) 4 else leAt b (j * elemSize fmt) (elemSize fmt)

/-- The codes of the elements of a row of bytes (R56). -/
def rowCodes (fmt cols : Nat) (b : Bytes) : List Nat :=
  (List.range cols).map fun j =>
    if elemBits fmt = 4 then fieldN (b.getD (j / 2) 0).toNat (4 * (j % 2)) 4
    else leAt b (j * elemSize fmt) (elemSize fmt)

/-- The bytes of the codes of a whole row; a padding nibble is zero (R56). -/
def codesRow (fmt : Nat) (codes : List Nat) : Bytes :=
  if elemBits fmt = 4 then
    (List.range ((codes.length + 1) / 2)).map fun k =>
      BitVec.ofNat 8 (codes.getD (2 * k) 0 % 16 + 16 * (codes.getD (2 * k + 1) 0 % 16))
  else codes.flatMap fun v => toLe (elemSize fmt) v

/-- The bytes that a row write of some of a row's elements makes: none where a byte keeps its value. Element j0 + i of the row has
the i-th code. A byte of two nibbles keeps the nibble of an element that is not written; the padding nibble of a row is
written zero (R56). -/
def rowWrites (fmt cols : Nat) (codes : List (Option Nat)) (old : Nat → Byte) : List (Option Byte) :=
  if elemBits fmt = 4 then
    (List.range ((codes.length + 1) / 2)).map fun k =>
      let lo := codes.getD (2 * k) none
      let hi := if 2 * k + 1 = cols then (if lo.isSome then some 0 else none) else codes.getD (2 * k + 1) none
      match lo, hi with
      | none, none => none
      | _, _ =>
        let o := (old k).toNat
        some (BitVec.ofNat 8 ((lo.getD (o % 16)) % 16 + 16 * ((hi.getD (o / 16)) % 16)))
  else codes.flatMap fun v => match v with
    | none => List.replicate (elemSize fmt) none
    | some v => (toLe (elemSize fmt) v).map some

/-- Group optional bytes into runs: (offset, bytes). -/
def segments : Nat → List (Option Byte) → List (Nat × Bytes)
  | _, [] => []
  | i, none :: r => segments (i + 1) r
  | i, some b :: r =>
    match segments (i + 1) r with
    | (j, d) :: t => if j = i + 1 then (i, b :: d) :: t else (i, [b]) :: (j, d) :: t
    | [] => [(i, [b])]

/-- Address of the first byte of a row of a tensor. -/
def Desc.rowVa (d : Desc) (r : Nat) : Nat := d.base + r * d.stride

/-- Write some elements of a row, from column 0 on. -/
def State.storeRow (s : State) (a : Agent) (d : Desc) (r : Nat) (codes : List (Option Nat)) : State :=
  let s := if elemBits d.fmt = 4 then s.settleRange a (d.rowVa r) (rowLen d.fmt d.cols) else s
  let w := rowWrites d.fmt d.cols codes fun k => s.peekByte a (d.rowVa r + k)
  (segments 0 w).foldl (fun s g => s.store a (d.rowVa r + g.1) g.2 false) s

/-- The fault of writing rows of a tensor, if any. -/
def State.rowsFault (s : State) (a : Agent) (d : Desc) (rows : List Nat) : Option (Nat × Nat) :=
  rows.findSome? fun r => s.storeFault a (d.rowVa r) (rowLen d.fmt d.cols)

/-! ## Statistics (R68 to R71) -/

/-- Add to a statistics entry. -/
def Stat.count (t : Stat) (turn : BitVec 64) (w c n : Nat) : Stat :=
  { written := t.written.add w, clipped := t.clipped.add c, nonfinite := t.nonfinite.add n, turn }

/-- Count elements written through the quantiser: in the context's table and in the command's own counts; a field that saturates
raises COUNTER_SATURATED once (R69). -/
def State.countStat (s : State) (x : Nat) (h : Option Word) (tag w c n : Nat) : State :=
  if w = 0 then s
  else
    let old := Tab.look (s.ctx x).stats {} tag
    let new := old.count s.turn.count w c n
    let s := s.modCtx x fun cx => { cx with stats := Tab.put cx.stats {} tag new }
    let s := match h with
      | none => s
      | some h => s.modCmd h fun m => { m with stats := Tab.upd m.stats {} tag fun t => t.count 0 w c n }
    let sat : Nat → Counter → Counter → State → State := fun i o k s =>
      if k.sat && !o.sat then s.raise { code := 0x0C06, ctx := some x, detail := [0, tag, i] } else s
    sat 2 old.nonfinite new.nonfinite (sat 1 old.clipped new.clipped (sat 0 old.written new.written s))

/-- The key, stream, step and logical position of the stochastic bytes of a row (R67, R194). -/
structure DrawPos where
  key    : Key128
  stream : BitVec 16
  step   : Nat
  row    : Nat
  col    : Nat
  deriving DecidableEq, Repr

/-- Write FP32 values of a row through the quantiser and count them (R64 to R68): element j of the row takes the j-th value, where
there is one. -/
def State.quantRow (s : State) (a : Agent) (d : Desc) (r : Nat) (p : DrawPos) (vals : List (Option Nat)) : State :=
  let q := vals.zipIdx.map fun v => v.1.map fun x =>
    quantise d.fmt x d.scale.toNat d.zp d.sr
      (if d.sr then drawByte p.key 4 p.stream p.step p.row (p.col + v.2) else 0)
  let s := s.storeRow a d r (q.map fun o => o.map fun z => z.bits)
  let done := q.filterMap id
  let clipped := (done.filter fun z => z.clipped).length
  let s := s.countStat a.ctx a.cmd d.tag done.length clipped (done.filter fun z => z.nonfinite).length
  match a.cmd with
  | some h => if done.isEmpty then s else s.modCmd h fun m => { m with rowStats := m.rowStats ++ [(d.rowVa r, d.tag, done.length, clipped)] }
  | none => s

end Sys2Proof.Machine
end

