-- ==== Sys2Proof/Machine/VecRegs.lean ====
section
/-! DEFINITION. The registers and operands of the vector engine (R157 to R164, R221): tile and mask elements, sources, active
elements, and writes under a mask and policy. -/

namespace Sys2Proof.Machine

/-! ## Fields -/

/-- TD of V3 and VM. -/
def vTd (w : Word) : Nat := field w 52 4
/-- MK of V3 and VM. -/
def vMk (w : Word) : Nat := field w 49 3
/-- POL of V3 and VM: ZERO when set (R221). -/
def vPol (w : Word) : Bool := bitAt w 48
/-- KIND, REG and INDEX of S1, S2 and S3 (R221). -/
def vKind (w : Word) (i : Nat) : Nat := if i = 0 then field w 45 3 else if i = 1 then field w 31 3 else field w 17 3
/-- REG. -/
def vReg (w : Word) (i : Nat) : Nat := if i = 0 then field w 40 5 else if i = 1 then field w 26 5 else field w 12 5
/-- INDEX. -/
def vIndex (w : Word) (i : Nat) : Nat := if i = 0 then field w 34 6 else if i = 1 then field w 20 6 else field w 6 6
/-- The 16-bit value of S3 under the kinds 4 to 6: an immediate or CODE. -/
def vCode (w : Word) : Nat := field w 0 16

/-- Does a source field keep its layout (R221): kind 7 with all other bits zero, and the reserved bits of S3 zero? -/
def vLayout (w : Word) : Bool :=
  (vKind w 0 != 7 || field w 34 11 == 0) && (vKind w 1 != 7 || field w 20 11 == 0) &&
    (if vKind w 2 = 7 then field w 0 17 == 0
     else if 4 ≤ vKind w 2 then field w 16 1 == 0
     else field w 0 6 == 0)

/-- First row and number of rows of VRANGE (R162). -/
def vFirst (r : Word) : Nat := field r 0 6
/-- See `vFirst`. -/
def vCount (r : Word) : Nat := field r 8 7

/-- The rows in range. -/
def vRows (r : Word) : List Nat := (List.range (vCount r)).map fun i => vFirst r + i

/-- ORG_R and ORG_C of VORG (R177). -/
def orgR (o : Word) : Nat := field o 0 24
/-- See `orgR`. -/
def orgC (o : Word) : Nat := field o 24 24

/-! ## Elements (R157, R158) -/

/-- An element of a tile register; columns at W or above read zero. -/
def CoreSt.tile (k : CoreSt) (t i j : Nat) : Nat := if j < k.awidth then (Tab.look k.tiles 0 (4096 * t + 64 * i + j)).toNat else 0

/-- A 64-bit element of an aligned pair (R159). -/
def CoreSt.pair (k : CoreSt) (t i j : Nat) : Nat := k.tile t i j + 2 ^ 32 * k.tile (t + 1) i j

/-- A bit of a mask register: M0 is all ones in every presented column, absent columns read zero. -/
def CoreSt.maskBit (k : CoreSt) (m i j : Nat) : Bool :=
  j < k.awidth && (m == 0 || Tab.look k.masks false (4096 * m + 64 * i + j))

/-- Write whole rows of a tile from a first row on: 64 values a row, those of absent columns dropped (R158). -/
def CoreSt.setRows (k : CoreSt) (t first : Nat) (rows : List (List Nat)) : CoreSt :=
  let vals := rows.flatMap fun r =>
    (List.range 64).map fun j => if j < k.awidth then BitVec.ofNat 32 (r.getD j 0) else (0 : Elem)
  { k with tiles := Tab.fill k.tiles 0 (4096 * t + 64 * first) vals }

/-- Write whole rows of a mask; a write of M0 is discarded. -/
def CoreSt.setMaskRows (k : CoreSt) (m first : Nat) (rows : List (List Bool)) : CoreSt :=
  if m = 0 then k
  else
    let vals := rows.flatMap fun r => (List.range 64).map fun j => j < k.awidth && r.getD j false
    { k with masks := Tab.fill k.masks false (4096 * m + 64 * first) vals }

/-! ## Sources (R161) -/

/-- The captured scalar of a source. -/
def VecOp.scalar (v : VecOp) (i : Nat) : Word := if i = 0 then v.sA else if i = 1 then v.sB else v.sC

/-- Element (i, j) of source n, 32 bits. -/
def CoreSt.src (k : CoreSt) (v : VecOp) (n i j : Nat) : Nat :=
  let t := vReg v.word n % 16
  match vKind v.word n with
  | 0 => k.tile t i j
  | 1 => k.tile t (vIndex v.word n) j
  | 2 => k.tile t i (vIndex v.word n)
  | 3 => (v.scalar n).toNat % 2 ^ 32
  | 4 => vCode v.word * 65536
  | 5 => wrapN 32 (signN 16 (vCode v.word))
  | _ => 0

/-- Element (i, j) of source n, 64 bits. -/
def CoreSt.src64 (k : CoreSt) (v : VecOp) (n i j : Nat) : Nat :=
  let t := vReg v.word n % 16
  match vKind v.word n with
  | 0 => k.pair t i j
  | 1 => k.pair t (vIndex v.word n) j
  | 2 => k.pair t i (vIndex v.word n)
  | 3 => (v.scalar n).toNat
  | _ => 0

/-- The register elements that element (i, j) of source n reads, as keys of `tiles` (R186). -/
def VecOp.srcKeys (v : VecOp) (wide : Bool) (n i j : Nat) : List Nat :=
  let t := vReg v.word n % 16
  let key : Nat → Nat → List Nat := fun i j =>
    (4096 * t + 64 * i + j) :: if wide then [4096 * (t + 1) + 64 * i + j] else []
  match vKind v.word n with
  | 0 => key i j
  | 1 => key (vIndex v.word n) j
  | 2 => key i (vIndex v.word n)
  | _ => []

/-! ## Active elements and results (R163) -/

/-- The columns 0 to 63. -/
def cols64 : List Nat := List.range 64

/-- The active elements of some rows under a mask. -/
def CoreSt.actives (k : CoreSt) (m : Nat) (rows : List Nat) : List (Nat × Nat) :=
  rows.flatMap fun i => (cols64.filter fun j => k.maskBit m i j).map fun j => (i, j)

/-- The rows of a result: active elements take their value, inactive ones keep theirs or become zero as the policy says. -/
def CoreSt.resultRows (k : CoreSt) (t m : Nat) (zero : Bool) (rows : List Nat) (f : Nat → Nat → Nat) : List (List Nat) :=
  rows.map fun i => cols64.map fun j => if k.maskBit m i j then f i j else if zero then 0 else k.tile t i j

/-- Raise flags of VFLAGS (R166). -/
def CoreSt.raiseFlags (k : CoreSt) (f : Nat) : CoreSt := { k with vflags := k.vflags ||| f }

/-- The union of the flags that a function raises on some elements. -/
def orFlags (l : List (Nat × Nat)) (f : Nat → Nat → Nat) : Nat := l.foldl (fun a e => a ||| f e.1 e.2) 0

/-- An element-wise instruction of 32-bit results: write TD and raise the flags of the active elements. -/
def CoreSt.elementwise (k : CoreSt) (v : VecOp) (f : Nat → Nat → Nat × Nat) : CoreSt :=
  let rows := vRows v.vrange
  let m := vMk v.word
  let out := k.resultRows (vTd v.word) m (vPol v.word) rows fun i j => (f i j).1
  (k.setRows (vTd v.word) (vFirst v.vrange) out).raiseFlags (orFlags (k.actives m rows) fun i j => (f i j).2)

/-- An element-wise instruction of 64-bit results, written to an aligned pair. -/
def CoreSt.elementwise64 (k : CoreSt) (v : VecOp) (f : Nat → Nat → Nat × Nat) : CoreSt :=
  let rows := vRows v.vrange
  let m := vMk v.word
  let t := vTd v.word
  let lo := k.resultRows t m (vPol v.word) rows fun i j => (f i j).1 % 2 ^ 32
  let hi := k.resultRows (t + 1) m (vPol v.word) rows fun i j => (f i j).1 / 2 ^ 32
  ((k.setRows t (vFirst v.vrange) lo).setRows (t + 1) (vFirst v.vrange) hi).raiseFlags
    (orFlags (k.actives m rows) fun i j => (f i j).2)

/-- A comparison: write one bit of a mask for each active element; inactive bits follow the policy (R164). -/
def CoreSt.compare (k : CoreSt) (v : VecOp) (f : Nat → Nat → Bool × Nat) : CoreSt :=
  let rows := vRows v.vrange
  let m := vMk v.word
  let d := vTd v.word % 8
  let out := rows.map fun i => cols64.map fun j =>
    if k.maskBit m i j then (f i j).1 else if vPol v.word then false else k.maskBit d i j
  (k.setMaskRows d (vFirst v.vrange) out).raiseFlags (orFlags (k.actives m rows) fun i j => (f i j).2)

/-- `tree_reduce` of R171 over 64 positions, with the flags of its operations; one level pairs neighbours. -/
def pairUp (op : Nat → Nat → Nat × Nat) : List Nat → List Nat × Nat
  | a :: b :: r =>
    let x := op a b
    let y := pairUp op r
    (x.1 :: y.1, x.2 ||| y.2)
  | [a] => ([a], 0)
  | [] => ([], 0)

/-- Six levels: 64 positions to one. -/
def treeReduce (op : Nat → Nat → Nat × Nat) (l : List Nat) : Nat × Nat :=
  let r := iterN (fun (a : List Nat × Nat) => let x := pairUp op a.1; (x.1, a.2 ||| x.2)) 6 (l, 0)
  (r.1.getD 0 0, r.2)

/-- An I32 operation on 32-bit patterns (R169), by opcode. -/
def int32 (opc a b : Nat) : Nat :=
  let x := BitVec.ofNat 32 a
  let y := BitVec.ofNat 32 b
  let n := b % 32
  match opc with
  | 0xB0 => (x + y).toNat
  | 0xB1 => (x - y).toNat
  | 0xB2 => (x * y).toNat
  | 0xB3 => if x.slt y then a else b
  | 0xB4 => if x.slt y then b else a
  | 0xB5 => (x &&& y).toNat
  | 0xB6 => (x ||| y).toNat
  | 0xB7 => (x ^^^ y).toNat
  | 0xB8 => (x <<< n).toNat
  | 0xB9 => (x >>> n).toNat
  | _ => (x.sshiftRight n).toNat

/-- The reductions of R172 by their code (R222): 0 FSUM, 1 FMAX, 2 FMIN, 3 ISUM, 4 IMAX, 5 IMIN. -/
def reduceOp (code a b : Nat) : Nat × Nat :=
  match code with
  | 0 => add32 a b
  | 1 => fMinMax 8 23 true a b
  | 2 => fMinMax 8 23 false a b
  | 3 => (int32 0xB0 a b, 0)
  | 4 => (int32 0xB4 a b, 0)
  | _ => (int32 0xB3 a b, 0)

/-- Their identities (R172). -/
def reduceId (code : Nat) : Nat :=
  match code with
  | 0 => 0x80000000
  | 1 => 0xFF800000
  | 2 => 0x7F800000
  | 3 => 0
  | 4 => 0x80000000
  | _ => 0x7FFFFFFF

/-- A row reduction of row i of a tile over its active positions (R173). -/
def CoreSt.reduceRow (k : CoreSt) (code t m i : Nat) (inRange : Bool) : Nat × Nat :=
  treeReduce (reduceOp code) (cols64.map fun j => if inRange && k.maskBit m i j then k.tile t i j else reduceId code)

/-- A column reduction of column j over the active positions of the rows in range (R173). -/
def CoreSt.reduceCol (k : CoreSt) (code t m j : Nat) (rows : List Nat) : Nat × Nat :=
  treeReduce (reduceOp code) (cols64.map fun i => if rows.contains i && k.maskBit m i j then k.tile t i j else reduceId code)

end Sys2Proof.Machine
end

