-- ==== Sys2Proof/Machine/Flags.lean ====
section
/-! DEFINITION. The accumulator's arithmetic and its flags (R100 to R122): `sr_units`, the conversions of preloads and drains, the
combination of partials, and the partial trailer. Exact values are fractions n / d of integers. -/

namespace Sys2Proof.Machine

/-! ## Accumulation flags in the places of FLAGS [3:0] (R115) -/

/-- INEXACT. -/
def afInexact : Nat := 1
/-- WINDOW_SHIFT. -/
def afShift : Nat := 2
/-- SATURATED. -/
def afSaturated : Nat := 4
/-- NONFINITE. -/
def afNonfinite : Nat := 8

/-! ## Exact values -/

/-- An exact rational: numerator and positive denominator. -/
structure Exact where
  n : Int
  d : Nat
  deriving DecidableEq, Repr

/-- m × 2^e. -/
def exDy (m e : Int) : Exact :=
  if 0 ≤ e then { n := m * (2 ^ e.toNat : Nat), d := 1 } else { n := m, d := 2 ^ (-e).toNat }

/-- Multiplication by 2^k. -/
def Exact.scale (a : Exact) (k : Int) : Exact :=
  if 0 ≤ k then { a with n := a.n * (2 ^ k.toNat : Nat) } else { a with d := a.d * 2 ^ (-k).toNat }

/-- Sum. -/
def Exact.add (a b : Exact) : Exact := { n := a.n * b.d + b.n * a.d, d := a.d * b.d }

/-- The exact value of a finite decoded number. -/
def FVal.exact : FVal → Exact
  | .fin a m e => exDy (sgn a m) e
  | .inf _ => { n := 0, d := 1 }
  | .nan _ => { n := 0, d := 1 }

/-- Is a value finite? -/
def FVal.finite : FVal → Bool
  | .fin _ _ _ => true
  | .inf _ => false
  | .nan _ => false

/-- Quotient by a positive dyadic value m × 2^e. -/
def Exact.divDy (a : Exact) (m : Nat) (e : Int) : Exact := ({ n := a.n, d := a.d * m } : Exact).scale (-e)

/-! ## The window (R100 to R103) -/

/-- LIM = 2^79 − 2^16 (R102). -/
def accLim : Int := 2 ^ 79 - 2 ^ 16

/-- NaR: the code −2^79 (R102). -/
def accNaR : Acc := BitVec.ofNat 80 (2 ^ 79)

/-- `sr_units` of R103: the term in units of 2^(w − 16), and whether bits were lost. -/
def srUnits (p : Exact) (w : Int) (u : Nat) : Int × Bool :=
  let t := p.scale (16 - w)
  let f := t.n / (t.d : Int)
  let r := (t.n % (t.d : Int)).toNat
  if r = 0 then (f, false) else if u * t.d < r * 256 then (f + 1, true) else (f, true)

/-- Is a sum within ±LIM (R107)? -/
def inLim (a : Int) : Bool := -accLim ≤ a && a ≤ accLim

/-- The byte of a product at logical index kg (R106). -/
def prodByte (base kg : Nat) : Nat := (base + 151 * kg) % 256

/-! ## Roundings of partials (R66, R112 to R114) -/

/-- Round an exact value to FP32 by the stochastic rule of R66: bits, lost, saturated. -/
def srF32 (p : Exact) (u : Nat) : Nat × Bool × Bool :=
  if p.n = 0 then (0, false, false)
  else
    let neg := p.n < 0
    let a := p.n.natAbs
    -- exponent of the leading bit: 2^top ≤ a / d < 2^(top + 1)
    let t0 : Int := (bitLen a : Int) - bitLen p.d
    let ge : Bool := if 0 ≤ t0 then p.d * 2 ^ t0.toNat ≤ a else p.d ≤ a * 2 ^ (-t0).toNat
    let top : Int := if ge then t0 else t0 - 1
    let qe : Int := max (top - 23) (-149)
    let s := ({ n := a, d := p.d } : Exact).scale (-qe)
    let q0 := s.n.toNat / s.d
    let r := s.n.toNat % s.d
    let q := if r != 0 && u * s.d < r * 256 then q0 + 1 else q0
    let bits := (qe + 149).toNat * 2 ^ 23 + q
    let low := (qe + 149).toNat * 2 ^ 23 + q0
    if 0x7F7FFFFF < bits || 0x7F7FFFFF < low || (low == 0x7F7FFFFF && r != 0) then
      (0x7F7FFFFF + if neg then 2 ^ 31 else 0, r != 0 || 0x7F7FFFFF < low, true)
    else (bits + if neg then 2 ^ 31 else 0, r != 0, false)

/-- rne_f32 of an exact value, once (R112): bits, and whether it was beyond the largest finite FP32. -/
def rneF32 (p : Exact) : Nat × Bool :=
  if p.n = 0 then (0, false)
  else
    let k := bitLen p.d + 28
    let a := p.n.natAbs * 2 ^ k
    let r := fRound 8 23 (p.n < 0) (a / p.d) (-(k : Int)) (a % p.d != 0)
    if p.d * ((2 ^ 24 - 1) * 2 ^ 104) < p.n.natAbs then (0x7F7FFFFF + (if p.n < 0 then 2 ^ 31 else 0), true) else (r.1, false)

/-- The Wide drain of a legal accumulator (R113): the W64 pattern and whether guard bits were lost. -/
def wideDrain (a : Acc) (u : Nat) : Nat × Bool :=
  if a = accNaR then (2 ^ 63, false)
  else
    let v := a.toInt
    let g := (v % 65536).toNat
    let q := v / 65536
    (wrapN 64 (if g != 0 && u * 256 < g then q + 1 else q), g != 0)

/-- The value A × 2^(w − 16) in product units (R100). -/
def accExact (a : Acc) (w : Int) : Exact := exDy a.toInt (w - 16)

/-! ## Combination (R119) -/

/-- The NaR code of W64. -/
def wNaR : Nat := 2 ^ 63

/-- The exact sum of two W64 values in product units. -/
def wideSum (a : Nat) (wa : Int) (b : Nat) (wb : Int) : Exact := (exDy (signN 64 a) wa).add (exDy (signN 64 b) wb)

/-- One attempt of a Wide rounding: integer units of 2^w. -/
def wideAt (p : Exact) (w : Int) (u : Nat) : Int × Bool := srUnits p (w + 16) u

/-- The legal range of a W64 (R102). -/
def wLim : Int := 2 ^ 63 - 1

/-- Does a value lie within ±(2^63 − 1)? -/
def inWide (r : Int) : Bool := -wLim ≤ r && r ≤ wLim

/-- The attempts of `combine_wide` (R119): value, window, lost, shift, saturated. -/
def combineLoop (p : Exact) (u : Nat) : Nat → Int → Bool → Nat × Int × Bool × Bool × Bool
  | fuel, w, shifted =>
    let r := wideAt p w u
    if inWide r.1 then (wrapN 64 r.1, w, r.2, shifted, false)
    else match fuel with
      | 0 => (wrapN 64 (max (-wLim) (min wLim r.1)), w, r.2, true, true)
      | n + 1 =>
        if 255 < w + 8 then (wrapN 64 (max (-wLim) (min wLim r.1)), w, r.2, true, true)
        else combineLoop p u n (w + 8) true

/-- `combine_wide` of R119. -/
def combineWide (a : Nat) (wa : Int) (b : Nat) (wb : Int) (u : Nat) : Nat × Int × Bool × Bool × Bool :=
  if a = wNaR || b = wNaR then (wNaR, max wa wb, false, false, false)
  else combineLoop (wideSum a wa b wb) u 3 (max wa wb) (wa != wb)

/-- `combine_compact` of R119: bits, lost, saturated, nonfinite. -/
def combineCompact (a b u : Nat) : Nat × Bool × Bool × Bool :=
  match fDecode 8 23 a, fDecode 8 23 b with
  | .nan _, _ => (0x7FC00000, false, false, true)
  | _, .nan _ => (0x7FC00000, false, false, true)
  | .inf x, .inf y => if x = y then (a, false, false, true) else (0x7FC00000, false, false, true)
  | .inf _, .fin _ _ _ => (a, false, false, true)
  | .fin _ _ _, .inf _ => (b, false, false, true)
  | .fin x m e, .fin y n f =>
    let s := (exDy (sgn x m) e).add (exDy (sgn y n) f)
    if s.n = 0 then (if x && y then 0x80000000 else 0, false, false, false)
    else
      let r := srF32 s u
      (r.1, r.2.1, r.2.2, false)

/-! ## The trailer (R115) -/

/-- The 64 bytes of a trailer. -/
def Trailer.bytes (t : Trailer) : Bytes :=
  toLe 2 (wrapN 16 t.window) ++ toLe 1 t.fmt ++ toLe 1 t.flags ++ toLe 1 t.m ++ toLe 1 t.n ++ toLe 2 0 ++
    toLe 4 t.scaleA.toNat ++ toLe 4 t.scaleB.toNat ++ toLe 8 t.kfirst ++ toLe 8 t.kend ++ toLe 8 t.turn.toNat ++
    List.replicate 24 0

/-- A trailer from its bytes. -/
def trailerOf (b : Bytes) : Trailer :=
  { window := signN 16 (leAt b 0 2), fmt := leAt b 2 1, flags := leAt b 3 1, m := leAt b 4 1, n := leAt b 5 1
    scaleA := BitVec.ofNat 32 (leAt b 8 4), scaleB := BitVec.ofNat 32 (leAt b 12 4)
    kfirst := fieldN (leAt b 0x10 8) 0 48, kend := fieldN (leAt b 0x18 8) 0 48, turn := BitVec.ofNat 64 (leAt b 0x20 8) }

/-- The element bytes of a tile row of W64 or FP32 partials: 64 elements (R84). -/
def partialRow (size : Nat) (l : List Nat) : Bytes := cols64.flatMap fun j => toLe size (l.getD j 0)

end Sys2Proof.Machine
end

