-- ==== Sys2Proof/Machine/VecExec.lean ====
section
/-! DEFINITION. What the vector instructions do to the registers and the scratchpad once they start (R157 to R183, R197 to R200,
R222 to R225). -/

namespace Sys2Proof.Machine

/-! ## Elements of the arithmetic instructions, by opcode (R222) -/

/-- An FP32 or I32 element-wise operation of up to three sources; the bits and the flags. -/
def elem32 (opc code a b c : Nat) : Nat × Nat :=
  match opc with
  | 0xA0 => add32 a b
  | 0xA1 => fSub 8 23 a b
  | 0xA2 => fMul 8 23 a b
  | 0xA3 => fFma 8 23 a b c
  | 0xA4 => fFms 8 23 a b c
  | 0xA5 => (a ^^^ 0x80000000, 0)
  | 0xA6 => (a % 2 ^ 31, 0)
  | 0xA7 => fMinMax 8 23 false a b
  | 0xA8 => fMinMax 8 23 true a b
  | 0xAA => (a, 0)
  | 0xBC =>
    match code with
    | 0 => f32ToI32 false a
    | 1 => f32ToI32 true a
    | _ => fOfInt 8 23 (signN 32 a)
  | 0xC0 => div32 a b
  | 0xC1 => div32 0x3F800000 a
  | 0xC2 => fSqrt 8 23 a
  | 0xC3 => fRsqrt 8 23 a
  | 0xC4 => ffun32 code a
  | _ => (int32 opc a b, 0)

/-- An FP64 element-wise operation. -/
def elem64 (opc a b c : Nat) : Nat × Nat :=
  match opc with
  | 0xC8 => fAdd 11 52 a b
  | 0xC9 => fSub 11 52 a b
  | 0xCA => fMul 11 52 a b
  | 0xCB => fFma 11 52 a b c
  | 0xCC => fMinMax 11 52 false a b
  | 0xCD => fMinMax 11 52 true a b
  | 0xCF => fDiv 11 52 a b
  | _ => fSqrt 11 52 a

/-- The I32 relations of ICMP. -/
def rel32 (rel a b : Nat) : Bool :=
  let x := signN 32 a
  let y := signN 32 b
  match rel with
  | 0 => x == y
  | 1 => x != y
  | 2 => x < y
  | 3 => x ≤ y
  | 4 => y < x
  | _ => y ≤ x

/-- The mask logic of MLOG by its code: 0 AND, 1 OR, 2 XOR, 3 ANDN, 4 NOT. -/
def maskLogic (code : Nat) (a b : Bool) : Bool :=
  match code with
  | 0 => a && b
  | 1 => a || b
  | 2 => a != b
  | 3 => a && !b
  | _ => !a

/-! ## Register-only instructions -/

/-- MLOG: whole masks, governed by the row range alone (R164). -/
def CoreSt.mlogOp (k : CoreSt) (v : VecOp) : CoreSt :=
  let a := vReg v.word 0 % 8
  let b := vReg v.word 1 % 8
  k.setMaskRows (vTd v.word % 8) (vFirst v.vrange) ((vRows v.vrange).map fun i =>
    cols64.map fun j => maskLogic (vCode v.word % 8) (k.maskBit a i j) (vKind v.word 1 != 7 && k.maskBit b i j))

/-- XPOSE: all 64 rows, under the mask (R170). -/
def CoreSt.xposeOp (k : CoreSt) (v : VecOp) : CoreSt :=
  let t := vReg v.word 0 % 16
  k.setRows (vTd v.word) 0 (k.resultRows (vTd v.word) (vMk v.word) (vPol v.word) (List.range 64) fun i j => k.tile t j i)

/-- ROTL, PERM and BCOL (R170): element (i, f i j) of Ts. -/
def CoreSt.moveOp (k : CoreSt) (v : VecOp) (f : Nat → Nat → Nat) : CoreSt :=
  k.elementwise v fun i j => (k.tile (vReg v.word 0 % 16) i (f i j), 0)

/-- RROW: each row in range into column c, where that element is active (R173). -/
def CoreSt.rrowOp (k : CoreSt) (v : VecOp) : CoreSt :=
  let rows := vRows v.vrange
  let m := vMk v.word
  let t := vReg v.word 0 % 16
  let c := fieldN (vCode v.word) 8 6
  let res := rows.map fun i => (i, k.reduceRow (vCode v.word % 8) t m i true)
  let out := res.map fun r => cols64.map fun j =>
    if j = c && k.maskBit m r.1 j then r.2.1 else k.tile (vTd v.word) r.1 j
  (k.setRows (vTd v.word) (vFirst v.vrange) out).raiseFlags (res.foldl (fun a r => a ||| r.2.2) 0)

/-- RCOL: each column into row r, where that element is active (R173). -/
def CoreSt.rcolOp (k : CoreSt) (v : VecOp) : CoreSt :=
  let rows := vRows v.vrange
  let m := vMk v.word
  let t := vReg v.word 0 % 16
  let r := fieldN (vCode v.word) 8 6
  let res := (List.range k.awidth).map fun j => k.reduceCol (vCode v.word % 8) t m j rows
  let out := cols64.map fun j =>
    if rows.contains r && k.maskBit m r j then (res.getD j (0, 0)).1 else k.tile (vTd v.word) r j
  (k.setRows (vTd v.word) r [out]).raiseFlags (res.foldl (fun a x => a ||| x.2) 0)

/-! ## Summaries (R174, R175, R223) -/

/-- The fields of the VS format. -/
def sMk (w : Word) : Nat := field w 48 3
/-- SRC. -/
def sSrc (w : Word) : Nat := field w 44 4
/-- ROW. -/
def sRow (w : Word) : Nat := field w 38 6
/-- COL. -/
def sCol (w : Word) : Nat := field w 32 6
/-- CODE. -/
def sCode (w : Word) : Nat := field w 28 4

/-- Is position a better than b for ARGMAX or ARGMIN: a NaN ranks above every number for ARGMAX and below every number for
ARGMIN, so it wins in both; equal values keep the lower index (R175). -/
def argBetter (isMax : Bool) (a b : FVal) : Bool :=
  if b.isNan then false
  else if a.isNan then true
  else if isMax then fCmp a b == .gt else fCmp a b == .lt

/-- ARGMAX or ARGMIN of a row over its active columns; 64 if none is active. -/
def CoreSt.argRow (k : CoreSt) (isMax : Bool) (t m i : Nat) (inRange : Bool) : Nat :=
  let act := cols64.filter fun j => inRange && k.maskBit m i j
  (act.foldl (fun (best : Nat × FVal) j =>
    let x := fDecode 8 23 (k.tile t i j)
    if best.1 = 64 || argBetter isMax x best.2 then (j, x) else best) (64, FVal.nan false)).1

/-- The reduction code of a summary: SUM, MAX or MIN of FP32 or I32. -/
def summReduce (code : Nat) (int : Bool) : Nat := (code - 3) % 3 + if int then 3 else 0

/-- A summary's result as 64 bits: FP32 zero-extended, I32 sign-extended. -/
def summWord (int : Bool) (v : Nat) : Word := if int then wordOf (signN 32 v) else BitVec.ofNat 64 v

/-- The value of a summary and the flags its reduction raises. -/
def CoreSt.summary (k : CoreSt) (v : VecOp) : Word × Nat :=
  let w := v.word
  let rows := vRows v.vrange
  let bits := rows.flatMap fun i => (List.range k.awidth).map fun j => k.maskBit (sSrc w % 8) i j
  let int := bitAt w 27
  let inR := rows.contains (sRow w)
  match sCode w with
  | 0 => (flagW' (bits.any id), 0)
  | 1 => (flagW' (bits.all id), 0)
  | 2 => (BitVec.ofNat 64 (bits.countP id), 0)
  | 9 => (BitVec.ofNat 64 (k.argRow true (sSrc w) (sMk w) (sRow w) inR), 0)
  | 10 => (BitVec.ofNat 64 (k.argRow false (sSrc w) (sMk w) (sRow w) inR), 0)
  | 11 =>
    (BitVec.ofNat 64 (if bitAt w 26 then k.pair (sSrc w) (sRow w) (sCol w) else k.tile (sSrc w) (sRow w) (sCol w)), 0)
  | n =>
    let code := summReduce n int
    if n ≤ 5 then
      let r := k.reduceRow code (sSrc w) (sMk w) (sRow w) inR
      (summWord int r.1, r.2)
    else
      let cols := cols64.map fun j => if j < k.awidth then k.reduceCol code (sSrc w) (sMk w) j rows else (reduceId code, 0)
      let r := treeReduce (reduceOp code) (cols.map fun c => c.1)
      (summWord int r.1, cols.foldl (fun a c => a ||| c.2) r.2)
where
  flagW' (b : Bool) : Word := if b then 1 else 0

/-! ## Draws and the sampler (R197 to R200) -/

/-- RAND by its code: 0 U8, 1 U32, 2 F32 (R197). -/
def CoreSt.randOp (k : CoreSt) (v : VecOp) : CoreSt :=
  let step := v.sA.toNat % 2 ^ 48
  k.elementwise v fun i j =>
    let r := orgR v.vorg + i
    let c := orgC v.vorg + j
    match vCode v.word % 4 with
    | 0 => (drawByte v.key 6 v.stream step r c, 0)
    | 1 => (drawWord v.key 6 v.stream step r c, 0)
    | _ => (fRound 8 23 false (drawWord v.key 6 v.stream step r c / 256) (-24) false)

/-- The rule of R199 and R200 for a running pair: is (y, c) better than the pair held? -/
def pairBetter (y c best idx : Nat) : Bool :=
  let a := fDecode 8 23 y
  let b := fDecode 8 23 best
  !a.isNan && !b.isNan && (fCmp a b == .gt || (fCmp a b == .eq && c < idx))

/-- One row of SAMPLE (R199): the pair of Td and the flags raised. The logarithms raise nothing but INEXACT. -/
def CoreSt.sampleRow (k : CoreSt) (v : VecOp) (i : Nat) : Nat × Nat × Nat :=
  let ts := vReg v.word 0 % 16
  let tx := vReg v.word 1 % 16
  let td := vTd v.word
  let tau := v.sC.toNat % 2 ^ 32
  let key : Key128 := BitVec.ofNat 128
    (k.tile tx i 0 + 2 ^ 32 * k.tile tx i 1 + 2 ^ 64 * k.tile tx i 2 + 2 ^ 96 * k.tile tx i 3)
  let pos := k.tile tx i 4
  let idx := k.tile tx i 5 % 2 ^ 24
  cols64.foldl (fun (a : Nat × Nat × Nat) j =>
    if !k.maskBit (vMk v.word) i j then a
    else
      let x := k.tile ts i j
      let c := (orgC v.vorg + j) % 2 ^ 32
      let xv := fDecode 8 23 x
      if xv.isNan then (a.1, a.2.1, a.2.2 ||| flInvalid)
      else if x = 0xFF800000 then a
      else
        let yf : Nat × Nat :=
          if tau % 2 ^ 31 = 0 then (x, 0)
          else
            let w := drawWord key 5 v.stream pos idx c
            let u := (fRound 8 23 false (2 * (w / 512) + 1) (-24) false).1
            let l1 := ffun32 2 u
            let l2 := ffun32 2 (l1.1 ^^^ 0x80000000)
            let q := div32 x tau
            let s := add32 q.1 (l2.1 ^^^ 0x80000000)
            (s.1, q.2 ||| s.2 ||| ((l1.2 ||| l2.2) &&& flInexact))
        if pairBetter yf.1 c a.1 a.2.1 then (yf.1, c, a.2.2 ||| yf.2) else (a.1, a.2.1, a.2.2 ||| yf.2))
    (k.tile td i 0, k.tile td i 1, 0)

/-- Write the running pairs of some rows. -/
def CoreSt.setPairs (k : CoreSt) (td first : Nat) (rows : List Nat) (p : List (Nat × Nat)) : CoreSt :=
  k.setRows td first ((rows.zip p).map fun e => cols64.map fun j =>
    if j = 0 then e.2.1 else if j = 1 then e.2.2 else k.tile td e.1 j)

/-- SAMPLE (R199). -/
def CoreSt.sampleOp (k : CoreSt) (v : VecOp) : CoreSt :=
  let rows := vRows v.vrange
  let out := rows.map fun i => k.sampleRow v i
  (k.setPairs (vTd v.word) (vFirst v.vrange) rows (out.map fun o => (o.1, o.2.1))).raiseFlags
    (out.foldl (fun a o => a ||| o.2.2) 0)

/-- SMERGE (R200). -/
def CoreSt.smergeOp (k : CoreSt) (v : VecOp) : CoreSt :=
  let rows := vRows v.vrange
  let ts := vReg v.word 0 % 16
  let td := vTd v.word
  k.setPairs td (vFirst v.vrange) rows (rows.map fun i =>
    if pairBetter (k.tile ts i 0) (k.tile ts i 1) (k.tile td i 0) (k.tile td i 1) then (k.tile ts i 0, k.tile ts i 1)
    else (k.tile td i 0, k.tile td i 1))

/-- The register-only instructions by opcode. -/
def CoreSt.vecCompute (k : CoreSt) (v : VecOp) : CoreSt :=
  let code := vCode v.word
  let a := k.src v 0
  let b := k.src v 1
  let c := k.src v 2
  match v.opc with
  | 0xA9 => k.elementwise v fun i j => (if k.maskBit (code % 8) i j then a i j else b i j, 0)
  | 0xAB => k.compare v fun i j => fRel 8 23 (code % 8) (a i j) (b i j)
  | 0xAC => k.compare v fun i j => (rel32 (code % 8) (a i j) (b i j), 0)
  | 0xCE => k.compare v fun i j => fRel 11 52 (code % 8) (k.src64 v 0 i j) (k.src64 v 1 i j)
  | 0xBC =>
    match code with
    | 3 => k.elementwise64 v fun i j => fConvert 8 23 11 52 (a i j)
    | 4 => k.elementwise v fun i j => fConvert 11 52 8 23 (k.src64 v 0 i j)
    | 5 => k.elementwise64 v fun i j => fOfInt 11 52 (signN 32 (a i j))
    | _ => k.elementwise v fun i j => elem32 0xBC code (a i j) 0 0
  | 0xD4 => k.xposeOp v
  | 0xD5 =>
    let n := if vKind v.word 1 = 3 then v.sB.toNat % 2 ^ 32 else code % 64
    k.moveOp v fun _ j => (j + n) % k.awidth
  | 0xD6 => k.moveOp v fun i j => k.tile (vReg v.word 1 % 16) i j % k.awidth
  | 0xD7 => k.moveOp v fun _ _ => code % 64
  | 0xD8 => k.rrowOp v
  | 0xD9 => k.rcolOp v
  | 0xDA => k.mlogOp v
  | 0xDB => k.elementwise v fun i j => (if k.maskBit (vReg v.word 0 % 8) i j then 1 else 0, 0)
  | 0xDC => k.compare v fun i j => (a i j != 0, 0)
  | 0xE0 =>
    let r := k.summary v
    ({ k with sums := k.sums ++ [(fRd v.word, r.1)] }).raiseFlags r.2
  | 0xEC => k.randOp v
  | 0xED => k.sampleOp v
  | 0xEE => k.smergeOp v
  | op =>
    if 0xC8 ≤ op && op ≤ 0xD0 then
      k.elementwise64 v fun i j => elem64 op (k.src64 v 0 i j) (k.src64 v 1 i j) (k.src64 v 2 i j)
    else k.elementwise v fun i j => elem32 op code (a i j) (b i j) (c i j)

/-! ## Loads, stores and QUANT (R165, R178 to R180, R224) -/

/-- The fields of the VM format. -/
def mForm (w : Word) : Nat := field w 45 3
/-- FMT. -/
def mFmt (w : Word) : Nat := field w 41 4
/-- READ. -/
def mRead (w : Word) : Nat := field w 39 2
/-- SIZE. -/
def mSize (w : Word) : Nat := field w 37 2
/-- SMODE. -/
def mMode (w : Word) : Nat := field w 20 2
/-- SCOUNT. -/
def mCount (w : Word) : Nat := field w 13 7
/-- SFIRST. -/
def mFirst (w : Word) : Nat := field w 1 12

/-- g of a strided read, by SIZE. -/
def strideG (w : Word) : Nat := 32 * 2 ^ mSize w

/-- The scratchpad address of the first byte of element (i, j) of a load or store, and whether it is the upper nibble (R131, R132,
R178). -/
def vmAddr (v : VecOp) (i j : Nat) : Nat × Bool :=
  let bits := elemBits (mFmt v.word)
  let base := v.sA.toNat
  match mRead v.word with
  | 1 => (base + 512 * j + i * bits / 8, bits == 4 && i % 2 == 1)
  | 2 =>
    let p := (64 * i + j) * bits / 8
    let g := strideG v.word
    (base + p / g * v.sB.toNat + p % g, bits == 4 && j % 2 == 1)
  | _ => (base + (64 * i + j) * bits / 8, bits == 4 && j % 2 == 1)

/-- The elements a load or store makes active: all rows, under the mask (R162, R163). -/
def CoreSt.vmActive (k : CoreSt) (v : VecOp) : List (Nat × Nat) := k.actives (vMk v.word) (List.range 64)

/-- The scratchpad rows that hold an active element, ascending (R165). -/
def CoreSt.touched (k : CoreSt) (v : VecOp) : List Nat :=
  sortBy id ((k.vmActive v).map fun e => (vmAddr v e.1 e.2).1 / 512).eraseDups

/-- The slots of some rows (R180). -/
def slotsOfRows (rows : List Nat) : List Nat := (rows.map fun r => r / 8).eraseDups

/-- The sluice checks of a list of slots that need not be consecutive. -/
def State.checkSlots (s : State) (c : Nat) (mode : Nat) (slots : List Nat) (write : Bool) : Checked :=
  if mode = 0 then .pass
  else match slots.find? fun n => ((s.lcoreOf c).slot n).full == write with
    | none => .pass
    | some n => if mode = 3 then .notReady n else .stall n

/-- The updates of a list of slots. -/
def State.updateSlots (s : State) (c : Nat) (mode : Nat) (slots : List Nat) (write : Bool) : State :=
  if 2 ≤ mode then s.modLcoreOf c fun l => l.update write slots else s

/-- The 32-bit or 64-bit register value of the bits loaded for one element, with flags (R178); a negative zero that is widened is a zero
(R55). -/
def loadElem (v : VecOp) (x : Nat) : Nat × Nat :=
  match mForm v.word with
  | 2 =>
    match elemValue (mFmt v.word) x with
    | .nan _ => (0x7FC00000, 0)
    | .inf n => (fInf 8 23 n, 0)
    | .fin n m e => ((fRoundI 8 23 (sgn n m) e false).1, 0)
  | 4 =>
    let r := decodeReal (mFmt v.word) x (v.sC.toNat % 2 ^ 32) (fieldN v.sC.toNat 32 8)
    (r.1, r.2 &&& 7)
  | _ => (x, 0)

/-- The bits of element (i, j) of a load, in the rows read. -/
def gatherElem (v : VecOp) (rows : List (Nat × Bytes)) (i j : Nat) : Nat :=
  let a := vmAddr v i j
  match rows.find? fun r => r.1 = a.1 / 512 with
  | none => 0
  | some r =>
    if elemBits (mFmt v.word) = 4 then fieldN (r.2.getD (a.1 % 512) 0).toNat (if a.2 then 4 else 0) 4
    else leAt r.2 (a.1 % 512) (elemSize (mFmt v.word))

/-- A fault of the vector engine: imprecise when found after issue (R230). -/
def State.vecFault (s : State) (c code addr : Nat) (off : Nat) : State :=
  s.fault c 3 0 code (faultStatus code) false (some off) addr []

/-- VLD, its checks passed: read the touched rows and write the tile. -/
def State.runVld (s : State) (c : Nat) (v : VecOp) : State :=
  let k := s.core c
  let rows := k.touched v
  match rows.find? fun r => !s.inShelves c (512 * r) 512 with
  | some r => s.vecFault c 0x0102 (512 * r) v.codeOff
  | none =>
    let rd := rows.foldl (fun (a : State × List (Nat × Bytes) × Bool) r =>
      let x := a.1.readRow c r
      (x.1, a.2.1 ++ [(r, x.2.1)], a.2.2 || x.2.2)) (s, [], false)
    let s := rd.1
    if rd.2.2 then s.vecFault c 0x010A v.sA.toNat v.codeOff
    else
      let k := s.core c
      let m := vMk v.word
      let t := vTd v.word
      let f := fun i j => loadElem v (gatherElem v rd.2.1 i j)
      let all := List.range 64
      let k' :=
        if mForm v.word = 1 then
          (k.setRows t 0 (k.resultRows t m (vPol v.word) all fun i j => (f i j).1 % 2 ^ 32)).setRows (t + 1) 0
            (k.resultRows (t + 1) m (vPol v.word) all fun i j => (f i j).1 / 2 ^ 32)
        else (k.setRows t 0 (k.resultRows t m (vPol v.word) all fun i j => (f i j).1)).raiseFlags
          (orFlags (k.vmActive v) fun i j => (f i j).2)
      let slots := if mCount v.word = 0 then slotsOfRows rows else (List.range (mCount v.word)).map fun n => mFirst v.word + n
      (s.modCore c fun _ => k').updateSlots c (mMode v.word) slots false

/-- VST, its checks passed: write the active elements of the touched rows (R165). -/
def State.runVst (s : State) (c : Nat) (v : VecOp) : State :=
  let k := s.core c
  let rows := k.touched v
  match rows.find? fun r => !s.inShelves c (512 * r) 512 with
  | some r => s.vecFault c 0x0102 (512 * r) v.codeOff
  | none =>
    let t := vTd v.word
    let size := elemSize (mFmt v.word)
    let bytes : List (Option Byte) := (List.range 64).flatMap fun i => cols64.flatMap fun j =>
      if k.maskBit (vMk v.word) i j then
        (toLe size (if mForm v.word = 1 then k.pair t i j else k.tile t i j)).map some
      else List.replicate size none
    let s := (segments 0 bytes).foldl (fun s g => s.writeScratch c (v.sA.toNat + g.1) g.2 false) s
    let slots := if mCount v.word = 0 then slotsOfRows rows else (List.range (mCount v.word)).map fun n => mFirst v.word + n
    s.updateSlots c (mMode v.word) slots true

/-- The rows of a destination in the aperture that QUANT touches. -/
def quantRows (d : Desc) (act : List (Nat × Nat)) : List Nat :=
  if inAperture d.base then
    sortBy id ((act.map fun e => scratchOf (d.rowVa e.1 + e.2 * elemBits d.fmt / 8) / 512).eraseDups)
  else []

/-- The active elements of QUANT that its destination has (log entry 11). -/
def CoreSt.quantActive (k : CoreSt) (v : VecOp) (d : Desc) : List (Nat × Nat) :=
  (k.actives (vMk v.word) (vRows v.vrange)).filter fun e => e.1 < d.rows && e.2 < d.cols

/-- QUANT, its checks passed: the rows in range go through the quantiser (R179, R194). -/
def State.runQuant (s : State) (c : Nat) (v : VecOp) (d : Desc) : State :=
  let k := s.core c
  let a := s.agent c 3
  let act := k.quantActive v d
  let rows := (act.map fun e => e.1).eraseDups
  match act.findSome? fun e => s.storeFault a (d.rowVa e.1 + e.2 * elemBits d.fmt / 8) (elemSize d.fmt) with
  | some f => s.vecFault c f.1 f.2 v.codeOff
  | none =>
    let s := rows.foldl (fun s i =>
      s.quantRow a d i { key := v.key, stream := v.stream, step := v.sB.toNat % 2 ^ 48, row := orgR v.vorg + i,
                         col := orgC v.vorg }
        ((List.range (min d.cols 64)).map fun j => if k.maskBit (vMk v.word) i j then some (k.tile (vTd v.word) i j) else none)) s
    let slots := if mCount v.word = 0 then slotsOfRows (quantRows d act)
      else (List.range (mCount v.word)).map fun n => mFirst v.word + n
    s.updateSlots c (mMode v.word) slots true

/-! ## COMBW and COMBC (R181 to R183, R225) -/

/-- The addresses and keys of a combine block (R225). -/
structure Combine where
  loRows : Nat
  loTrl  : Nat
  hiRows : Nat
  hiTrl  : Nat
  dstRows : Nat
  dstTrl : Nat
  orgR   : Nat
  orgC   : Nat
  level  : Nat
  node   : Nat
  slIn   : Sluice
  slOut  : Sluice
  deriving DecidableEq, Repr

/-- The fields of a combine block. -/
def combineOf (b : Bytes) : Combine :=
  { loRows := leAt b 0 3, loTrl := leAt b 4 3, hiRows := leAt b 8 3, hiTrl := leAt b 12 3, dstRows := leAt b 16 3
    dstTrl := leAt b 20 3, orgR := leAt b 24 3, orgC := leAt b 28 3, level := fieldN (leAt b 32 4) 8 4
    node := fieldN (leAt b 32 4) 0 8, slIn := sluiceOf (leAt b 36 4), slOut := sluiceOf (leAt b 40 4) }

/-- Does a combine block keep its layout (R225)? -/
def combineLayout (b : Bytes) : Bool :=
  [3, 7, 11, 15, 19, 23, 27, 31].all (fun i => leAt b i 1 == 0) && fieldN (leAt b 32 4) 12 20 == 0 &&
    1 ≤ fieldN (leAt b 32 4) 8 4 && sluiceLayout (leAt b 36 4) && sluiceLayout (leAt b 40 4) && allZero (sliceAt b 44 20)

/-- Scratchpad rows that hold m tile rows of 8-byte or 4-byte partials (R84). -/
def partialRows (wide : Bool) (m : Nat) : Nat := if wide then m else (m + 1) / 2

/-- Element (i, j) of partials read from their rows. -/
def partialElem (wide : Bool) (d : Bytes) (i j : Nat) : Nat :=
  if wide then leAt d (512 * i + 8 * j) 8 else leAt d (256 * i + 4 * j) 4

/-- The node's window of COMBW (R183): the first candidate at which every element fits, or the last candidate tried. -/
def nodeWindow (fits : Int → Bool) : Nat → Int → Int × Bool
  | 0, w => (w, fits w)
  | n + 1, w => if fits w then (w, true) else if 255 < w + 8 then (w, false) else nodeWindow fits n (w + 8)

/-- COMBW and COMBC, their sluice checks passed. -/
def State.runCombine (s : State) (c : Nat) (v : VecOp) (wide : Bool) : State :=
  let b := combineOf v.block
  let size := if wide then 8 else 4
  let tl := s.readScratch c b.loTrl 64
  let th := tl.1.readScratch c b.hiTrl 64
  let s := th.1
  let lo := trailerOf tl.2.1
  let hi := trailerOf th.2.1
  let fmt := if wide then 1 else 2
  if tl.2.2 || th.2.2 then s.vecFault c 0x010A b.loTrl v.codeOff
  else if lo.fmt != fmt || hi.fmt != fmt || lo.m != hi.m || lo.n != hi.n || lo.scaleA != hi.scaleA || lo.scaleB != hi.scaleB
      || lo.kend != hi.kfirst then s.vecFault c 0x0108 b.loTrl v.codeOff
  else
    let m := min lo.m 64
    let n := min lo.n 64
    let nr := partialRows wide m
    if [b.loRows, b.hiRows, b.dstRows].any fun a => !s.inShelves c a (512 * nr) then
      s.vecFault c 0x0102 b.loRows v.codeOff
    else
      let rl := s.readRows c (b.loRows / 512) nr
      let rh := rl.1.readRows c (b.hiRows / 512) nr
      let s := rh.1
      if rl.2.2 || rh.2.2 then s.vecFault c 0x010A b.loRows v.codeOff
      else
        let xs := partialElem wide rl.2.1
        let ys := partialElem wide rh.2.1
        let byte := fun i j => drawByte v.key 3 v.stream (256 * b.level + b.node) (b.orgR + i) (b.orgC + j)
        let elems := (List.range m).flatMap fun i => (List.range n).map fun j => (i, j)
        let nar := fun i j => xs i j == wNaR || ys i j == wNaR
        let sum := fun i j => wideSum (xs i j) lo.window (ys i j) hi.window
        let w0 := max lo.window hi.window
        let win := nodeWindow (fun w => elems.all fun e => nar e.1 e.2 || inWide (wideAt (sum e.1 e.2) w (byte e.1 e.2)).1) 3 w0
        let wide1 := fun i j =>
          if nar i j then (wNaR, false)
          else
            let r := wideAt (sum i j) win.1 (byte i j)
            (wrapN 64 (max (-wLim) (min wLim r.1)), r.2)
        let comp := fun i j => combineCompact (xs i j) (ys i j) (byte i j)
        let val := fun i j => if n ≤ j then 0 else if wide then (wide1 i j).1 else (comp i j).1
        let any := fun (p : Nat → Nat → Bool) => elems.any fun e => p e.1 e.2
        let own :=
          if wide then
            (if any fun i j => (wide1 i j).2 then afInexact else 0) +
            (if lo.window != hi.window || win.1 != w0 || !win.2 then afShift else 0) + (if win.2 then 0 else afSaturated) +
            (if any nar then afNonfinite else 0)
          else
            (if any fun i j => (comp i j).2.1 then afInexact else 0) +
            (if any fun i j => (comp i j).2.2.1 then afSaturated else 0) +
            (if any fun i j => (comp i j).2.2.2 then afNonfinite else 0)
        let raised := if wide then ((win.1 - w0) / 8).toNat else 0
        let flags := (lo.flags ||| hi.flags ||| own) % 16
        let out := (List.range m).flatMap fun i => partialRow size (cols64.map fun j => val i j)
        -- the window that a Compact node's trailer carries is not stated: a free value (log entry 13)
        let window := if wide then win.1 else signN 16 (Config.freeWord s.fresh).toNat
        let s := if wide then s else { s with fresh := s.fresh + 1 }
        let trl : Trailer := { window, fmt, flags := flags + 16 * raised, m := lo.m, n := lo.n, scaleA := lo.scaleA
                               scaleB := lo.scaleB, kfirst := lo.kfirst, kend := hi.kend, turn := s.turn.count }
        let s := (s.writeScratch c b.dstRows out false).writeScratch c b.dstTrl trl.bytes false
        let s := s.modCore c fun k => { k with accFlags := k.accFlags ||| flags }
        let s := s.modCmd (s.core c).handle fun q => { q with acc := q.acc ||| flags }
        ((s.sluiceUpdate c b.slIn false).sluiceUpdate c b.slOut true).bumpCore c 16 1

end Sys2Proof.Machine
end

