-- ==== Sys2Proof/Machine/Vector.lean ====
section
/-! DEFINITION. The vector instructions: their checks at issue, the engine's queue, and one meaning for each (R157 to R188, R197 to
R200, R221 to R226). An instruction whose turn has come and whose slots pass runs to its end at once (log entry 14). -/

namespace Sys2Proof.Machine

/-! ## Checks at issue -/

/-- The kinds that each source of an opcode may have (R222); kind 7 is none. -/
def vKinds (opc : Nat) : List Nat × List Nat × List Nat :=
  let v := [0, 1, 2, 3]
  if opc ∈ [0xA3, 0xA4] then (v, v, [0, 1, 2, 3, 4, 5])
  else if opc ∈ [0xA5, 0xA6, 0xAA, 0xC1, 0xC2, 0xC3, 0xD0] then (v, [7], [7])
  else if opc ∈ [0xA9, 0xAB, 0xAC, 0xCE] then (v, v, [6])
  else if opc ∈ [0xBC, 0xC4] then (v, [7], [6])
  else if opc = 0xCB then (v, v, v)
  else if opc = 0xD4 then ([0], [7], [7])
  else if opc = 0xD5 then ([0], [3, 7], [6, 7])
  else if opc = 0xD6 then ([0], [0], [7])
  else if opc ∈ [0xD7, 0xD8, 0xD9] then ([0], [7], [6])
  else if opc = 0xDA then ([0], [0, 7], [6])
  else if opc ∈ [0xDB, 0xDC, 0xEE] then ([0], [7], [7])
  else if opc = 0xEC then ([3], [7], [6])
  else if opc = 0xED then ([0], [0], [3])
  else (v, v, [7])

/-- The CODE values that an opcode has (R222). -/
def vCodeOk (opc code : Nat) : Bool :=
  match opc with
  | 0xA9 => code ≤ 7
  | 0xAB => code ≤ 6
  | 0xCE => code ≤ 6
  | 0xAC => code ≤ 5
  | 0xBC => code ≤ 5
  | 0xC4 => code ≤ 8
  | 0xD5 => code ≤ 63
  | 0xD7 => code ≤ 63
  | 0xD8 => code % 256 ≤ 5 && code < 2 ^ 14
  | 0xD9 => code % 256 ≤ 5 && code < 2 ^ 14
  | 0xDA => code ≤ 4
  | 0xEC => code ≤ 2
  | _ => true

/-- Are a source's registers an aligned pair where the operation takes 64-bit elements (R159)? -/
def pairOk (w : Word) (i : Nat) : Bool := 3 ≤ vKind w i || vReg w i % 2 == 0

/-- The pair rule of an opcode: the sources and the destination that hold 64-bit elements (R159). -/
def vPairs (opc : Nat) (w : Word) : Bool :=
  if opc = 0xBC then
    (if vCode w = 3 || vCode w = 5 then vTd w % 2 == 0 else if vCode w = 4 then pairOk w 0 else true)
  else if opc = 0xCE then pairOk w 0 && pairOk w 1
  else if 0xC8 ≤ opc && opc ≤ 0xD0 then vTd w % 2 == 0 && pairOk w 0 && pairOk w 1 && pairOk w 2
  else true

/-- The checks of a V3 instruction at issue: VEC_OPERAND if they fail (R159, R173, R199, R221). -/
def v3Ok (k : CoreSt) (v : VecOp) : Bool :=
  let w := v.word
  let ks := vKinds v.opc
  ks.1.contains (vKind w 0) && ks.2.1.contains (vKind w 1) && ks.2.2.contains (vKind w 2) &&
    (vKind w 2 != 6 || vCodeOk v.opc (vCode w)) && vPairs v.opc w &&
    (!([0xAB, 0xAC, 0xCE, 0xDA, 0xDC].contains v.opc) || vTd w < 8) &&
    (v.opc != 0xD5 || (vKind w 1 == 3) != (vKind w 2 == 6)) &&
    (v.opc != 0xDA || (vKind w 1 == 7) == (vCode w == 4)) &&
    (v.opc != 0xD8 || fieldN (vCode w) 8 6 < k.awidth) &&
    (v.opc != 0xED ||
      (vTd w != vReg w 0 % 16 && vTd w != vReg w 1 % 16 &&
        (v.sC.toNat % 2 ^ 31 == 0 || posNormal32 (v.sC.toNat % 2 ^ 32))))

/-- The formats that FORM allows (R178). -/
def formFmts (form : Nat) : List Nat :=
  match form with
  | 0 => [7, 9]
  | 1 => [8, 10]
  | 2 => [5, 6]
  | 3 => [0, 1]
  | 4 => [0, 1, 2, 3, 4]
  | _ => []

/-- The SIZE code of a transposed read of an element format (R224). -/
def sizeCode (fmt : Nat) : Nat :=
  match elemBits fmt with
  | 4 => 0
  | 8 => 1
  | 16 => 2
  | 32 => 3
  | _ => 4

/-- The slot fields of the VM format: under PLAIN both zero; an explicit range of at most 64 slots (R215, R224). -/
def vmSlotsOk (w : Word) : Bool :=
  if mMode w = 0 then mCount w == 0 && mFirst w == 0 else mCount w ≤ 64 && (mCount w != 0 || mFirst w == 0)

/-- The checks of VLD, VST and QUANT at issue: VEC_OPERAND if they fail (R178, R224). Of the readers that R131 names, the encodings give VLD alone a
field for its transposed and strided forms, so only it has them (log entry 125). -/
def vmOk (v : VecOp) : Bool :=
  let w := v.word
  vmSlotsOk w &&
  (if v.opc = 0xE6 then
    mForm w == 0 && mFmt w == 0 && mRead w == 0 && mSize w == 0 && field w 22 5 == 0
  else
    (formFmts (mForm w)).contains (mFmt w) && v.sA.toNat < 2 ^ 24 && (mForm w != 1 || vTd w % 2 == 0) &&
    (mForm w == 4 || field w 22 5 == 0) &&
    (mForm w != 4 || scaleOk (mFmt w) (v.sC.truncate 32) (fieldN v.sC.toNat 32 8)) &&
    (match mRead w with
      | 0 => mSize w == 0 && field w 27 5 == 0
      | 1 => v.opc == 0xE4 && mSize w == sizeCode (mFmt w) && field w 27 5 == 0
      | 2 => v.opc == 0xE4 && v.sB.toNat % strideG w == 0
      | _ => false) &&
    (v.opc != 0xE5 || mForm w ≤ 1))

/-- The alignment of a load's or store's address (R130, R131). The square of a transposed load starts at any multiple of 64 bytes in its row; the
elements of a wider format go on from there (log entry 125). -/
def vmAligned (v : VecOp) : Bool :=
  match mRead v.word with
  | 1 => v.sA.toNat % 64 == 0 && v.sA.toNat / 512 % 128 + 64 ≤ 128
  | 2 => v.sA.toNat % strideG v.word == 0
  | _ => v.sA.toNat % 512 == 0

/-- The checks of SUMM at issue (R223). -/
def summOk (w : Word) : Bool :=
  (!bitAt w 26 || (sCode w == 11 && sSrc w % 2 == 0)) && (2 < sCode w || sSrc w ≤ 7)

/-- The fault of an instruction at issue: its code, if any (R162, R221 to R225). -/
def State.vecIssueFault (s : State) (c : Nat) (v : VecOp) : Option Nat :=
  let k := s.core c
  let w := v.word
  if vCount v.vrange = 0 || 64 < vFirst v.vrange + vCount v.vrange then some 0x0108
  else if v.opc = 0xE0 then (if summOk w then none else some 0x0108)
  else if v.opc = 0xE4 || v.opc = 0xE5 || v.opc = 0xE6 then
    if !vmOk v then some 0x0108
    else if v.opc != 0xE6 && !vmAligned v then some 0x0103
    else if mMode w != 0 && 16 * s.shelvesOf c < mFirst w + mCount w then some 0x0102
    else none
  else if v.opc = 0xE8 || v.opc = 0xE9 then
    let b := combineOf v.block
    if !combineLayout v.block then some 0x0108
    else if v.opc = 0xE8 && (k.owner.any fun o => (s.ctx o.1).req.modes.testBit 0) then some 0x0108
    else if [b.loRows, b.hiRows, b.dstRows].any (fun a => a % 512 != 0) || [b.loTrl, b.hiTrl, b.dstTrl].any (fun a => a % 64 != 0)
    then some 0x0103
    else if [b.loTrl, b.hiTrl, b.dstTrl].any (fun a => !s.inShelves c a 64) || !b.slIn.inRange (s.shelvesOf c) ||
        !b.slOut.inRange (s.shelvesOf c) then some 0x0102
    else none
  else if v3Ok k v then none else some 0x0108

/-! ## Errors in the registers (R186) -/

/-- Element (i, j) of a tile as a key of `tiles`. -/
def tileKey (t i j : Nat) : Nat := 4096 * t + 64 * i + j

/-- The elements of Ts that ROTL, PERM and BCOL carry to element (i, j), and the index element that PERM reads (R170). -/
def CoreSt.moveKeys (k : CoreSt) (v : VecOp) (i j : Nat) : List Nat :=
  let ts := vReg v.word 0 % 16
  if v.opc = 0xD5 then
    [tileKey ts i ((j + if vKind v.word 1 = 3 then v.sB.toNat % 2 ^ 32 else vCode v.word % 64) % k.awidth)]
  else if v.opc = 0xD6 then
    let tx := vReg v.word 1 % 16
    [tileKey ts i (k.tile tx i j % k.awidth), tileKey tx i j]
  else [tileKey ts i (vCode v.word % 64)]

/-- The tile elements that a summary reads: the rows outside VRANGE are not read, save by ELEM, which names one element whatever the
range (R162, R174). -/
def CoreSt.summKeys (k : CoreSt) (v : VecOp) : List Nat :=
  let w := v.word
  if sCode w ≤ 2 then []
  else if sCode w = 11 then
    tileKey (sSrc w) (sRow w) (sCol w) :: if bitAt w 26 then [tileKey (sSrc w + 1) (sRow w) (sCol w)] else []
  else
    let rows := vRows v.vrange
    (k.actives (sMk w) (if 6 ≤ sCode w && sCode w ≤ 8 then rows else rows.filter fun i => i == sRow w)).map fun e =>
      tileKey (sSrc w) e.1 e.2

/-- The tile elements that an instruction names as read, as keys: of the active elements of a V3 instruction through its sources, and
of the tile that a store or QUANT writes out. -/
def CoreSt.namedKeys (k : CoreSt) (v : VecOp) : List Nat :=
  let w := v.word
  let wide := (0xC8 ≤ v.opc && v.opc ≤ 0xD0) || (v.opc == 0xBC && vCode w == 4)
  let key := tileKey
  if v.opc = 0xE5 || v.opc = 0xE6 then
    ((if v.opc = 0xE5 then k.vmActive v else k.actives (vMk w) (vRows v.vrange)).flatMap fun e =>
      key (vTd w) e.1 e.2 :: if mForm w = 1 then [key (vTd w + 1) e.1 e.2] else [])
  else if v.opc = 0xE4 || v.opc = 0xE8 || v.opc = 0xE9 || v.opc = 0xDA || v.opc = 0xDB then []
  else if v.opc = 0xE0 then k.summKeys v
  else if v.opc = 0xD5 || v.opc = 0xD6 || v.opc = 0xD7 then
    (k.actives (vMk w) (vRows v.vrange)).flatMap fun e => k.moveKeys v e.1 e.2
  else if v.opc = 0xD4 then (k.actives (vMk w) (List.range 64)).map fun e => key (vReg w 0 % 16) e.2 e.1
  else if v.opc = 0xED then
    (vRows v.vrange).flatMap fun i => ((List.range 6).map fun j => key (vReg w 1 % 16) i j) ++ [key (vTd w) i 0, key (vTd w) i 1] ++
      ((k.actives (vMk w) [i]).map fun e => key (vReg w 0 % 16) e.1 e.2)
  else if v.opc = 0xEE then
    (vRows v.vrange).flatMap fun i => [key (vReg w 0 % 16) i 0, key (vReg w 0 % 16) i 1, key (vTd w) i 0, key (vTd w) i 1]
  else (k.actives (vMk w) (vRows v.vrange)).flatMap fun e =>
    (List.range 3).flatMap fun n => v.srcKeys wide n e.1 e.2

/-- The tile elements that an instruction reads: of those it names, the columns that the context presents; an absent column reads as
zero and raises nothing (R158). -/
def CoreSt.readKeys (k : CoreSt) (v : VecOp) : List Nat := (k.namedKeys v).filter fun e => e % 64 < k.awidth

/-- Row i of mask m as a key of the error lists. -/
def maskKey (m i : Nat) : Nat := 65536 + 64 * m + i

/-- The mask rows that an instruction reads (R186). -/
def CoreSt.readMasks (v : VecOp) : List Nat :=
  let w := v.word
  let rows :=
    if v.opc = 0xE4 || v.opc = 0xE5 || v.opc = 0xD4 then List.range 64
    else if v.opc = 0xE0 && (3 ≤ sCode w && sCode w ≤ 5 || 9 ≤ sCode w) then (vRows v.vrange).filter fun i => i == sRow w
    else vRows v.vrange
  let regs :=
    if v.opc = 0xE8 || v.opc = 0xE9 then []
    else if v.opc = 0xE0 then (if sCode w ≤ 2 then [sSrc w % 8] else if sCode w = 11 then [] else [sMk w])
    else if v.opc = 0xDA then [vReg w 0 % 8] ++ if vKind w 1 = 0 then [vReg w 1 % 8] else []
    else [vMk w] ++ (if v.opc = 0xDB then [vReg w 0 % 8] else []) ++ if v.opc = 0xA9 then [vCode w % 8] else []
  (regs.filter fun m => m != 0).flatMap fun m => rows.map fun i => maskKey m i

/-- The rows on which an instruction acts: a transpose and a load of a whole tile ignore VRANGE (R162). -/
def VecOp.rows (v : VecOp) : List Nat := if v.opc = 0xD4 || v.opc = 0xE4 then List.range 64 else vRows v.vrange

/-- The tile elements and whole mask rows that an instruction writes, as keys: their old check bits are gone. A mask row that keeps
some of its bits keeps its error. -/
def CoreSt.writtenKeys (k : CoreSt) (v : VecOp) : List Nat :=
  let w := v.word
  let opc := v.opc
  let act := k.actives (vMk w) v.rows
  let whole := v.rows.flatMap fun i => cols64.map fun j => (i, j)
  let wide := (0xC8 ≤ opc && opc ≤ 0xD0) || (opc == 0xBC && (vCode w == 3 || vCode w == 5)) || (opc == 0xE4 && mForm w == 1)
  let put : List (Nat × Nat) → List Nat := fun es =>
    es.flatMap fun e => tileKey (vTd w) e.1 e.2 :: if wide then [tileKey (vTd w + 1) e.1 e.2] else []
  if opc = 0xE0 || opc = 0xE5 || opc = 0xE6 || opc = 0xE8 || opc = 0xE9 || opc = 0xED || opc = 0xEE then []
  else if opc = 0xDA then v.rows.map fun i => maskKey (vTd w % 8) i
  else if opc = 0xAB || opc = 0xAC || opc = 0xCE || opc = 0xDC then
    (v.rows.filter fun i => vPol w || (List.range k.awidth).all fun j => k.maskBit (vMk w) i j).map fun i => maskKey (vTd w % 8) i
  else if opc = 0xD8 then put (act.filter fun e => e.2 == fieldN (vCode w) 8 6)
  else if opc = 0xD9 then put (act.filter fun e => e.1 == fieldN (vCode w) 8 6)
  else put (if vPol w then whole else act)

/-- New contents have good check bits: the errors of the keys written are gone. -/
def CoreSt.freshBits (k : CoreSt) (keys : List Nat) : CoreSt :=
  if k.vbad.isEmpty && k.vsoft.isEmpty then k
  else { k with vbad := k.vbad.filter fun e => !keys.contains e, vsoft := k.vsoft.filter fun e => !keys.contains e }

/-- Find register errors that the instruction reads: correctable ones are counted and corrected; an uncorrectable one is answered
(R186). -/
def State.scanRegs (s : State) (c : Nat) (v : VecOp) : State × Option Nat :=
  let k := s.core c
  if k.vbad.isEmpty && k.vsoft.isEmpty then (s, none)
  else
    let read := k.readKeys v ++ CoreSt.readMasks v
    let soft := k.vsoft.filter fun e => read.contains e
    let s := if soft.isEmpty then s else
      (s.modCore c fun k => { k with vsoft := k.vsoft.filter fun e => !read.contains e }).bumpCore c 17 soft.length
    (s, k.vbad.find? fun e => read.contains e)

/-! ## The queue (R160) -/

/-- The rows M of a COMBW or COMBC: those of its lower source's trailer (R183). -/
def State.combineRows (s : State) (c : Nat) (v : VecOp) : Nat :=
  min 64 (trailerOf (s.readScratch c (combineOf v.block).loTrl 64).2.1).m

/-- Cycles in which an instruction occupies the engine's pipeline (R167, R183); a summary of one row takes one; loads and stores count
their grants without conflicts. -/
def State.vecCycles (s : State) (c : Nat) (v : VecOp) : Nat :=
  let k := s.core c
  let op := v.opc
  let n := if op = 0xE0 && (3 ≤ sCode v.word && sCode v.word ≤ 5 || 9 ≤ sCode v.word) then 1 else vCount v.vrange
  if op = 0xD4 then 64
  else if op = 0xE4 || op = 0xE5 then ((k.touched v).length + 15) / 16
  else if op = 0xE8 then 2 * s.combineRows c v + 12
  else if op = 0xE9 then s.combineRows c v + 12
  else if op = 0xED then 8 * n
  else if op = 0xCF || op = 0xD0 then 16 * n
  else if 0xC8 ≤ op && op ≤ 0xCE then 4 * n
  else if 0xC0 ≤ op && op ≤ 0xC4 then 4 * n
  else if op = 0xBC && 3 ≤ vCode v.word then 4 * n
  else n

/-- Active elements of an instruction. -/
def vecElements (k : CoreSt) (v : VecOp) : Nat :=
  if v.opc = 0xE8 || v.opc = 0xE9 || v.opc = 0xE0 || v.opc = 0xDA then 0
  else if v.opc = 0xE4 || v.opc = 0xE5 || v.opc = 0xD4 then (k.actives (vMk v.word) (List.range 64)).length
  else (k.actives (vMk v.word) (vRows v.vrange)).length

/-- The slots that the head access of the vector queue waits for (R143, R180): mode, slots, write; for COMBW and COMBC both ranges. -/
def State.vecSlots (s : State) (c : Nat) (v : VecOp) : List (Nat × List Nat × Bool) :=
  let k := s.core c
  let w := v.word
  let explicit := (List.range (mCount w)).map fun n => mFirst w + n
  if v.opc = 0xE4 then [(mMode w, if mCount w = 0 then slotsOfRows (k.touched v) else explicit, false)]
  else if v.opc = 0xE5 then [(mMode w, if mCount w = 0 then slotsOfRows (k.touched v) else explicit, true)]
  else if v.opc = 0xE6 then
    match (s.readDesc (s.agent c 3) (v.sA.toNat)).2 with
    | .ok d => [(mMode w, if mCount w = 0 then slotsOfRows (quantRows d (k.quantActive v d)) else explicit, true)]
    | .bad _ _ => []
  else if v.opc = 0xE8 || v.opc = 0xE9 then
    let b := combineOf v.block
    [(b.slIn.mode, b.slIn.slots, false), (b.slOut.mode, b.slOut.slots, true)]
  else []

/-- The check of an instruction's slots: the first range that does not pass decides. -/
def State.vecCheck (s : State) (c : Nat) (v : VecOp) : Checked :=
  ((s.vecSlots c v).map fun g => s.checkSlots c g.1 g.2.1 g.2.2).foldl (fun a b => if a = .pass then b else a) .pass

/-- Run an instruction whose slots have passed. QUANT to a format that the quantiser lacks raises VEC_OPERAND (R64; log entry 60). -/
def State.vecRun (s : State) (c : Nat) (v : VecOp) : State :=
  let r := s.scanRegs c v
  let s := r.1
  match r.2 with
  | some key =>
    let s := s.bumpCore c 18 1
    -- a mask row spans every lane: the record names no lane, and no lane is charged with it (log entry 132)
    if 65536 ≤ key then
      s.fault c 3 0 0x010B 0x06 false (some v.codeOff) 0 [16 + (key - 65536) / 64, (key - 65536) % 64, 0xFFFF]
    else
      (s.fault c 3 0 0x010B 0x06 false (some v.codeOff) 0 [key / 4096, key / 64 % 64, key % 64]).noteLaneUe c
        (s.physLane c (key % 64))
  | none =>
    let n := vecElements (s.core c) v
    let cyc := s.vecCycles c v
    let keys := (s.core c).writtenKeys v
    let h := (s.core c).handle
    let failed := fun (s : State) => (s.cmd h).any fun m => m.whole.isSome
    let before := failed s
    let s :=
      if v.opc = 0xE4 then s.runVld c v
      else if v.opc = 0xE5 then s.runVst c v
      else if v.opc = 0xE6 then
        let d := s.readDesc (s.agent c 3) v.sA.toNat
        match d.2 with
        | .bad code addr => d.1.vecFault c code addr v.codeOff
        | .ok dd => if quantFormat dd.fmt then d.1.runQuant c v dd else d.1.vecFault c 0x0108 v.sA.toNat v.codeOff
      else if v.opc = 0xE8 then s.runCombine c v true
      else if v.opc = 0xE9 then s.runCombine c v false
      else s.modCore c fun k => k.vecCompute v
    if !before && failed s then s
    else (((s.modCore c fun k => k.freshBits keys).bumpCore c 11 1).bumpCore c 12 cyc).bumpCore c 13 n

/-- Run the head of the queue while its slots pass (R160, R143). -/
def vecDrain : Nat → Nat → State → State
  | 0, _, s => s
  | n + 1, c, s =>
    match (s.core c).vq with
    | [] => s
    | v :: r =>
      match s.vecCheck c v with
      | .stall _ => s
      | .notReady slot => s.fault c 3 0 0x0104 0x02 false (some v.codeOff) slot []
      | .pass => vecDrain n c ((s.modCore c fun k => { k with vq := r }).clearStall c 2 |>.vecRun c v)

/-- Capture what an instruction takes from the control core (R207, R226). -/
def State.capture (s : State) (c opc : Nat) (w : Word) (regs : List Nat) (block : Bytes) : VecOp :=
  let k := s.core c
  { opc, word := w, sA := k.reg (regs.getD 0 0), sB := k.reg (regs.getD 1 0), sC := k.reg (regs.getD 2 0), block
    vrange := k.vrange, vorg := k.vorg, key := k.drawKey, stream := k.drawStream, codeOff := k.pc }

/-- Queue a captured instruction, or stall on a full queue; then let the engine run (R160, R206). -/
def State.vecQueue (s : State) (c : Nat) (v : VecOp) : State :=
  match s.vecIssueFault c v with
  | some code => s.fault c 3 0 code (faultStatus code) true (some v.codeOff) 0 []
  | none =>
    if 16 ≤ (s.core c).vq.length then s.stallAt c v.opc v.word
    else
      let s := if v.opc = 0xE0 then s.setReg c (fRd v.word) (s.reg c (fRd v.word)) else s
      vecDrain 17 c ((s.modCore c fun k => { k with vq := k.vq ++ [v] }).advance c)

/-- The scalar registers that the sources of a V3 instruction name (R221, kind 3). -/
def v3Regs (w : Word) : List Nat := (List.range 3).map fun i => if vKind w i = 3 then vReg w i else 0

/-- The registers of the VM format. -/
def vmRegs (w : Word) : List Nat := [field w 32 5, field w 27 5, field w 22 5]

/-- The body of a V3 instruction. -/
def bodyV3 (opc c : Nat) (w : Word) (s : State) : State :=
  if vLayout w then s.vecQueue c (s.capture c opc w (v3Regs w) []) else s.illegal c

/-- A V3 instruction. -/
def vec3 (opc c : Nat) (w : Word) (s : State) : Host.Outcome State Fault Refusal :=
  control opc 0 (v3Regs w) (bodyV3 opc c w) c w s

/-- The body of a VM instruction. -/
def bodyVm (opc c : Nat) (w : Word) (s : State) : State := s.vecQueue c (s.capture c opc w (vmRegs w) [])

/-- A VM instruction: bit 0 is reserved. -/
def vecM (opc c : Nat) (w : Word) (s : State) : Host.Outcome State Fault Refusal :=
  control opc 1 (vmRegs w) (bodyVm opc c w) c w s

/-- The address of a 64-byte or 128-byte parameter block: the fault of its address, if any (R130, R208). -/
def State.blockFault (s : State) (c : Nat) (a : Word) (n : Nat) : Option Nat :=
  if 2 ^ 24 ≤ a.toNat || !s.inShelves c a.toNat n then some 0x0102
  else if a.toNat % n != 0 then some 0x0103
  else none

/-- Read the parameter block of a unit instruction at issue (R207, R208) and go on with its bytes. -/
def State.withBlock (s : State) (c unit : Nat) (w : Word) (n : Nat) (go : State → Bytes → State) : State :=
  let a := s.reg c (fUra w)
  match s.blockFault c a n with
  | some code => s.fault c unit 0 code (faultStatus code) true (some (s.pc c)) a.toNat []
  | none =>
    let r := s.readBlock c a.toNat n
    if r.2.2 then r.1.fault c unit 0 0x010A 0x06 false (some (s.pc c)) a.toNat [] else go r.1 r.2.1

/-- The body of COMBW and COMBC. -/
def bodyComb (opc c : Nat) (w : Word) (s : State) : State :=
  s.withBlock c 3 w 64 fun s b => s.vecQueue c (s.capture c opc w [] b)

/-- COMBW and COMBC: format U with ARRAY zero. -/
def vecU (opc c : Nat) (w : Word) (s : State) : Host.Outcome State Fault Refusal :=
  control opc (resU ||| 7 * 2 ^ 53) [fUra w] (bodyComb opc c w) c w s

/-- The body of SUMM: its codes 12 to 15 are reserved values (R205, R223). -/
def bodySumm (c : Nat) (w : Word) (s : State) : State :=
  if 11 < sCode w then s.illegal c else s.vecQueue c (s.capture c 0xE0 w [] [])

/-! ## The instructions -/

/-- FADD (R222). -/
def execFadd (c : Nat) (w : Word) (s : State) : Host.Outcome State Fault Refusal := vec3 0xA0 c w s
/-- FSUB (R222). -/
def execFsub (c : Nat) (w : Word) (s : State) : Host.Outcome State Fault Refusal := vec3 0xA1 c w s
/-- FMUL (R222). -/
def execFmul (c : Nat) (w : Word) (s : State) : Host.Outcome State Fault Refusal := vec3 0xA2 c w s
/-- FFMA (R222). -/
def execFfma (c : Nat) (w : Word) (s : State) : Host.Outcome State Fault Refusal := vec3 0xA3 c w s
/-- FFMS (R222). -/
def execFfms (c : Nat) (w : Word) (s : State) : Host.Outcome State Fault Refusal := vec3 0xA4 c w s
/-- FNEG (R222). -/
def execFneg (c : Nat) (w : Word) (s : State) : Host.Outcome State Fault Refusal := vec3 0xA5 c w s
/-- FABS (R222). -/
def execFabs (c : Nat) (w : Word) (s : State) : Host.Outcome State Fault Refusal := vec3 0xA6 c w s
/-- FMIN (R222). -/
def execFmin (c : Nat) (w : Word) (s : State) : Host.Outcome State Fault Refusal := vec3 0xA7 c w s
/-- FMAX (R222). -/
def execFmax (c : Nat) (w : Word) (s : State) : Host.Outcome State Fault Refusal := vec3 0xA8 c w s
/-- SEL (R222). -/
def execSel (c : Nat) (w : Word) (s : State) : Host.Outcome State Fault Refusal := vec3 0xA9 c w s
/-- COPY (R222). -/
def execVecCopy (c : Nat) (w : Word) (s : State) : Host.Outcome State Fault Refusal := vec3 0xAA c w s
/-- FCMP (R222). -/
def execFcmp (c : Nat) (w : Word) (s : State) : Host.Outcome State Fault Refusal := vec3 0xAB c w s
/-- ICMP (R222). -/
def execIcmp (c : Nat) (w : Word) (s : State) : Host.Outcome State Fault Refusal := vec3 0xAC c w s
/-- IADD (R222). -/
def execIadd (c : Nat) (w : Word) (s : State) : Host.Outcome State Fault Refusal := vec3 0xB0 c w s
/-- ISUB (R222). -/
def execIsub (c : Nat) (w : Word) (s : State) : Host.Outcome State Fault Refusal := vec3 0xB1 c w s
/-- IMUL (R222). -/
def execImul (c : Nat) (w : Word) (s : State) : Host.Outcome State Fault Refusal := vec3 0xB2 c w s
/-- IMIN (R222). -/
def execImin (c : Nat) (w : Word) (s : State) : Host.Outcome State Fault Refusal := vec3 0xB3 c w s
/-- IMAX (R222). -/
def execImax (c : Nat) (w : Word) (s : State) : Host.Outcome State Fault Refusal := vec3 0xB4 c w s
/-- IAND (R222). -/
def execIand (c : Nat) (w : Word) (s : State) : Host.Outcome State Fault Refusal := vec3 0xB5 c w s
/-- IOR (R222). -/
def execIor (c : Nat) (w : Word) (s : State) : Host.Outcome State Fault Refusal := vec3 0xB6 c w s
/-- IXOR (R222). -/
def execIxor (c : Nat) (w : Word) (s : State) : Host.Outcome State Fault Refusal := vec3 0xB7 c w s
/-- ISHL (R222). -/
def execIshl (c : Nat) (w : Word) (s : State) : Host.Outcome State Fault Refusal := vec3 0xB8 c w s
/-- ISHR (R222). -/
def execIshr (c : Nat) (w : Word) (s : State) : Host.Outcome State Fault Refusal := vec3 0xB9 c w s
/-- ISAR (R222). -/
def execIsar (c : Nat) (w : Word) (s : State) : Host.Outcome State Fault Refusal := vec3 0xBA c w s
/-- CVT (R222). -/
def execCvt (c : Nat) (w : Word) (s : State) : Host.Outcome State Fault Refusal := vec3 0xBC c w s
/-- FDIV (R222). -/
def execFdiv (c : Nat) (w : Word) (s : State) : Host.Outcome State Fault Refusal := vec3 0xC0 c w s
/-- FRCP (R222). -/
def execFrcp (c : Nat) (w : Word) (s : State) : Host.Outcome State Fault Refusal := vec3 0xC1 c w s
/-- FSQRT (R222). -/
def execFsqrt (c : Nat) (w : Word) (s : State) : Host.Outcome State Fault Refusal := vec3 0xC2 c w s
/-- FRSQRT (R222). -/
def execFrsqrt (c : Nat) (w : Word) (s : State) : Host.Outcome State Fault Refusal := vec3 0xC3 c w s
/-- FFUN (R222). -/
def execFfun (c : Nat) (w : Word) (s : State) : Host.Outcome State Fault Refusal := vec3 0xC4 c w s
/-- DADD (R222). -/
def execDadd (c : Nat) (w : Word) (s : State) : Host.Outcome State Fault Refusal := vec3 0xC8 c w s
/-- DSUB (R222). -/
def execDsub (c : Nat) (w : Word) (s : State) : Host.Outcome State Fault Refusal := vec3 0xC9 c w s
/-- DMUL (R222). -/
def execDmul (c : Nat) (w : Word) (s : State) : Host.Outcome State Fault Refusal := vec3 0xCA c w s
/-- DFMA (R222). -/
def execDfma (c : Nat) (w : Word) (s : State) : Host.Outcome State Fault Refusal := vec3 0xCB c w s
/-- DMIN (R222). -/
def execDmin (c : Nat) (w : Word) (s : State) : Host.Outcome State Fault Refusal := vec3 0xCC c w s
/-- DMAX (R222). -/
def execDmax (c : Nat) (w : Word) (s : State) : Host.Outcome State Fault Refusal := vec3 0xCD c w s
/-- DCMP (R222). -/
def execDcmp (c : Nat) (w : Word) (s : State) : Host.Outcome State Fault Refusal := vec3 0xCE c w s
/-- DDIV (R222). -/
def execDdiv (c : Nat) (w : Word) (s : State) : Host.Outcome State Fault Refusal := vec3 0xCF c w s
/-- DSQRT (R222). -/
def execDsqrt (c : Nat) (w : Word) (s : State) : Host.Outcome State Fault Refusal := vec3 0xD0 c w s
/-- XPOSE (R222). -/
def execXpose (c : Nat) (w : Word) (s : State) : Host.Outcome State Fault Refusal := vec3 0xD4 c w s
/-- ROTL (R222). -/
def execVecRotl (c : Nat) (w : Word) (s : State) : Host.Outcome State Fault Refusal := vec3 0xD5 c w s
/-- PERM (R222). -/
def execPerm (c : Nat) (w : Word) (s : State) : Host.Outcome State Fault Refusal := vec3 0xD6 c w s
/-- BCOL (R222). -/
def execBcol (c : Nat) (w : Word) (s : State) : Host.Outcome State Fault Refusal := vec3 0xD7 c w s
/-- RROW (R222). -/
def execRrow (c : Nat) (w : Word) (s : State) : Host.Outcome State Fault Refusal := vec3 0xD8 c w s
/-- RCOL (R222). -/
def execRcol (c : Nat) (w : Word) (s : State) : Host.Outcome State Fault Refusal := vec3 0xD9 c w s
/-- MLOG (R222). -/
def execMlog (c : Nat) (w : Word) (s : State) : Host.Outcome State Fault Refusal := vec3 0xDA c w s
/-- MTOT (R222). -/
def execMtot (c : Nat) (w : Word) (s : State) : Host.Outcome State Fault Refusal := vec3 0xDB c w s
/-- TTOM (R222). -/
def execTtom (c : Nat) (w : Word) (s : State) : Host.Outcome State Fault Refusal := vec3 0xDC c w s
/-- RAND (R222). -/
def execRand (c : Nat) (w : Word) (s : State) : Host.Outcome State Fault Refusal := vec3 0xEC c w s
/-- SAMPLE (R222). -/
def execSample (c : Nat) (w : Word) (s : State) : Host.Outcome State Fault Refusal := vec3 0xED c w s
/-- SMERGE (R222). -/
def execSmerge (c : Nat) (w : Word) (s : State) : Host.Outcome State Fault Refusal := vec3 0xEE c w s
/-- SUMM (R223): VS format, bits 25 to 0 reserved. -/
def execSumm (c : Nat) (w : Word) (s : State) : Host.Outcome State Fault Refusal :=
  control 0xE0 (2 ^ 26 - 1) [] (bodySumm c w) c w s
/-- VLD (R224). -/
def execVld (c : Nat) (w : Word) (s : State) : Host.Outcome State Fault Refusal := vecM 0xE4 c w s
/-- VST (R224). -/
def execVst (c : Nat) (w : Word) (s : State) : Host.Outcome State Fault Refusal := vecM 0xE5 c w s
/-- QUANT (R179, R224). -/
def execQuant (c : Nat) (w : Word) (s : State) : Host.Outcome State Fault Refusal := vecM 0xE6 c w s
/-- COMBW (R183, R225). -/
def execCombw (c : Nat) (w : Word) (s : State) : Host.Outcome State Fault Refusal := vecU 0xE8 c w s
/-- COMBC (R183, R225). -/
def execCombc (c : Nat) (w : Word) (s : State) : Host.Outcome State Fault Refusal := vecU 0xE9 c w s

/-- SUMMARY_WRITE (R174): the oldest summary is written into its register; the cycles that the control core was stalled on it are
counted. -/
def execSummaryWrite (c cycles : Nat) (s : State) : Host.Outcome State Fault Refusal :=
  match (s.core c).sums with
  | [] => idle s
  | (rd, v) :: r =>
    when (s.coreOn c) s fun s =>
      (s.modCore c fun k => { k with sums := r, regs := if rd = 0 then k.regs else Tab.put k.regs 0 rd v }).bumpCore c 15 cycles

end Sys2Proof.Machine
end

