-- ==== Sys2Proof/Machine/Arrays.lean ====
section
/-! DEFINITION. The matrix arrays (R73 to R124, R216 to R218): the pass block and its checks, operands in hopper layout, preloads,
operand steps with exact terms, repeats, drains with their trailers, and the activity levels. A product lands in the command
that issues it (log entry 15). -/

namespace Sys2Proof.Machine

/-! ## The pass block (R216) -/

/-- The fields of a pass block. -/
structure PassBlk where
  srcA  : Nat
  descA : Nat
  srcB  : Nat
  descB : Nat
  dest  : Nat
  preSrc : Nat
  trailer : Nat
  preTrailer : Nat
  k0    : Nat
  orgR  : Nat
  orgC  : Nat
  m     : Nat
  n     : Nat
  k     : Nat
  window : Int
  preload : Nat
  drain : Nat
  slA   : Sluice
  slB   : Sluice
  slPre : Sluice
  slDrain : Sluice
  deriving DecidableEq, Repr

/-- The fields of a pass block, from its 128 bytes. -/
def passOf (b : Bytes) : PassBlk :=
  let shape := leAt b 0x38 8
  let mode := leAt b 0x40 4
  { srcA := fieldN (leAt b 0 8) 62 2, descA := fieldN (leAt b 0 8) 0 48, srcB := fieldN (leAt b 8 8) 62 2
    descB := fieldN (leAt b 8 8) 0 48, dest := fieldN (leAt b 0x10 8) 0 48, preSrc := fieldN (leAt b 0x18 8) 0 48
    trailer := fieldN (leAt b 0x20 4) 0 24, preTrailer := fieldN (leAt b 0x24 4) 0 24, k0 := fieldN (leAt b 0x28 8) 0 48
    orgR := fieldN (leAt b 0x30 4) 0 24, orgC := fieldN (leAt b 0x34 4) 0 24, m := fieldN shape 40 8, n := fieldN shape 32 8
    k := fieldN shape 0 21, window := signN 16 (fieldN mode 16 16), preload := fieldN mode 8 3, drain := fieldN mode 4 2
    slA := sluiceOf (leAt b 0x44 4), slB := sluiceOf (leAt b 0x48 4), slPre := sluiceOf (leAt b 0x4C 4)
    slDrain := sluiceOf (leAt b 0x50 4) }

/-- Does a pass block keep its layout (R216, R218)? -/
def passLayout (b : Bytes) : Bool :=
  let p := passOf b
  let mode := leAt b 0x40 4
  p.srcA ≤ 1 && fieldN (leAt b 0 8) 48 14 == 0 && p.srcB ≤ 2 && fieldN (leAt b 8 8) 48 14 == 0 &&
    fieldN (leAt b 0x10 8) 48 16 == 0 && (p.drain == 0 || p.dest < 2 ^ 24) &&
    fieldN (leAt b 0x18 8) 48 16 == 0 && (p.preload == 2 || p.preload == 3 || p.preSrc < 2 ^ 24) &&
    ((p.preload != 0 && p.preload != 4) || p.preSrc == 0) && fieldN (leAt b 0x20 4) 24 8 == 0 &&
    (p.drain != 0 || p.trailer == 0) && fieldN (leAt b 0x24 4) 24 8 == 0 && (p.preload == 1 || p.preTrailer == 0) &&
    fieldN (leAt b 0x28 8) 48 16 == 0 && fieldN (leAt b 0x30 4) 24 8 == 0 && fieldN (leAt b 0x34 4) 24 8 == 0 &&
    fieldN (leAt b 0x38 8) 48 16 == 0 && fieldN (leAt b 0x38 8) 21 11 == 0 && fieldN mode 11 5 == 0 && p.preload ≤ 4 &&
    fieldN mode 6 2 == 0 && p.drain ≤ 2 && fieldN mode 0 4 == 0 && sluiceLayout (leAt b 0x44 4) &&
    sluiceLayout (leAt b 0x48 4) && sluiceLayout (leAt b 0x4C 4) && sluiceLayout (leAt b 0x50 4) &&
    (p.srcA == 0 || p.slA.mode == 0) && (p.srcB == 0 || p.slB.mode == 0) && allZero (sliceAt b 0x54 44)

/-- Steps of a hopper block of an operand format (R217). -/
def blockSteps (fmt : Nat) : Nat := if elemBits fmt = 4 then 16 else if elemBits fmt = 16 then 4 else 8

/-- Steps that one hopper buffer holds (R79). -/
def bufferSteps (fmt : Nat) : Nat := 16 * blockSteps fmt

/-- Hopper blocks of a pass side (R217). -/
def passBlocks (fmt k : Nat) : Nat := ceilDiv k (blockSteps fmt)

/-- Operand formats of the arrays (R75). -/
def operandFormat (fmt : Nat) : Bool := fmt ≤ 6

/-! ## Access to an array and its slots -/

/-- An array of a core. -/
def State.array (s : State) (c a : Nat) : ArraySt := Tab.look (s.core c).arrays {} a

/-- Change an array of a core. -/
def State.modArray (s : State) (c a : Nat) (f : ArraySt → ArraySt) : State :=
  s.modCore c fun k => { k with arrays := Tab.upd k.arrays {} a f }

/-- A slot of an array. -/
def ArraySt.slot (y : ArraySt) (b : Bool) : TileSlot := if b then y.slot1 else y.slot0

/-- Change a slot of an array. -/
def ArraySt.modSlot (y : ArraySt) (b : Bool) (f : TileSlot → TileSlot) : ArraySt :=
  if b then { y with slot1 := f y.slot1 } else { y with slot0 := f y.slot0 }

/-- Does a slot hold a pass whose drain has not begun? -/
def TileSlot.busy (t : TileSlot) : Bool := t.use == .pass || t.use == .landed || t.use == .abandoned

/-- Passes started whose drain has not begun; they stand at the front of the queue (R78). -/
def ArraySt.started (y : ArraySt) : Nat := (if y.slot0.busy then 1 else 0) + if y.slot1.busy then 1 else 0

/-- The slot of the queue's i-th entry: passes use the slots alternately (R82). -/
def ArraySt.slotOfEntry (y : ArraySt) (i : Nat) : Bool := if (i + y.started) % 2 = 0 then y.next else !y.next

/-- The physical array, by its global number, that a core's array index is bound to (R369). -/
def State.physArray (s : State) (c a : Nat) : Nat := 8 * c + (Tab.opt (s.core c).bind a).getD a

/-- Count into counter n of an array: for the kernel (R214), the device and the context (R98, R123). -/
def State.bumpA (s : State) (c a n k : Nat) : State :=
  if k = 0 then s
  else (s.modArray c a fun y => { y with counts := Tab.upd y.counts {} n fun t => t.add k }).bumpArray (s.physArray c a) n k
    ((s.ownerOf c).map fun o => o.1)

/-- An imprecise fault of a pass (R216). -/
def State.passFault (s : State) (c a code : Nat) (p : PassQ) (addr : Nat) : State :=
  s.fault c 4 a code (faultStatus code) false (some p.codeOff) addr []

/-! ## PASS -/

/-- The trailer that a RETAIN preload of a newly issued pass would read: what the previous pass on its slot drains (R86); only its
drain kind, M and N matter here. -/
def ArraySt.retainOk (y : ArraySt) (p : PassBlk) : Bool :=
  if 2 ≤ y.queue.length then
    match y.queue[y.queue.length - 2]? with
    | some q => let f := passOf q.block; f.drain != 0 && f.m == p.m && f.n == p.n
    | none => false
  else match (y.slot (y.slotOfEntry y.queue.length)).prevTrailer with
    | some t => t.m == p.m && t.n == p.n
    | none => false

/-- The format that a descriptor names as memory stands, for the issue check of a B replay. -/
def State.peekFormat (s : State) (c va : Nat) : Nat :=
  let b := if inAperture va then Tab.span (s.lcoreOf c).rows 0 (scratchOf va) 32
    else (s.vpeek (s.agent c 4).ctx va 32).getD []
  (descOf b).fmt

/-- The conditions on a B replay that the state at issue decides (R218). -/
def ArraySt.replayOk (y : ArraySt) (p : PassBlk) : Bool :=
  match y.lastIssue with
  | none => false
  | some (k, fmt, n) => k == p.k && k ≤ bufferSteps fmt && n < 255

/-- The fault of a pass at issue, if any (R77, R101, R120, R130, R215, R216). -/
def State.passIssueFault (s : State) (c a : Nat) (b : Bytes) : Option Nat :=
  let k := s.core c
  let y := s.array c a
  let p := passOf b
  let compact := k.owner.any fun o => (s.ctx o.1).req.modes.testBit 0
  let rows := partialRows (p.drain == 1) p.m
  if !passLayout b || !k.amask.getLsbD a || p.m = 0 || 64 < p.m || p.n = 0 || k.awidth < p.n || p.k = 0 || 2 ^ 20 < p.k ||
      p.window < -288 || 255 < p.window || (p.drain == 1 && compact) || (p.preload == 4 && !y.retainOk p) ||
      (p.srcB == 2 && !y.replayOk p) then some 0x0106
  else if (p.drain != 0 && (p.dest % 512 != 0 || p.trailer % 64 != 0)) ||
      (p.preload == 1 && (p.preSrc % 512 != 0 || p.preTrailer % 64 != 0)) then some 0x0103
  else if (p.drain != 0 && (!s.inShelves c p.dest (512 * rows) || !s.inShelves c p.trailer 64)) ||
      (p.preload == 1 && (!s.inShelves c p.preSrc 512 || !s.inShelves c p.preTrailer 64)) ||
      [p.slA, p.slB, p.slPre, p.slDrain].any (fun u => !u.inRange (s.shelvesOf c)) then some 0x0102
  else none

/-- ARRAY of format U. -/
def fArray (w : Word) : Nat := field w 53 3

/-- The body of PASS: checks at issue, then the array's queue of four (R78). -/
def bodyPass (c : Nat) (w : Word) (s : State) : State :=
  s.withBlock c 4 w 128 fun s b =>
    let a := fArray w
    match s.passIssueFault c a b with
    | some code => s.fault c 4 a code (faultStatus code) true (some (s.pc c)) 0 []
    | none =>
      let y := s.array c a
      let p := passOf b
      if 4 ≤ y.queue.length then s.stallAt c 0x80 w
      else
        let k := s.core c
        let q : PassQ := { block := b, key := k.drawKey, stream := k.drawStream, codeOff := k.pc }
        let issue := if p.srcB = 2 then y.lastIssue.map fun l => (l.1, l.2.1, l.2.2 + 1) else some (p.k, s.peekFormat c p.descB, 0)
        (s.modArray c a fun y => { y with queue := y.queue ++ [q], lastIssue := issue }).advance c

/-- PASS (R216). -/
def execPass (c : Nat) (w : Word) (s : State) : Host.Outcome State Fault Refusal :=
  control 0x80 resU [fUra w] (bodyPass c w) c w s

/-! ## Operands -/

/-- The code of row or column r at step k of an operand in hopper layout (R217). -/
def hopCode (fmt : Nat) (hop : Bytes) (r k : Nat) : Nat :=
  let base := 512 * (k / blockSteps fmt) + 8 * r
  if elemBits fmt = 4 then fieldN (leAt hop (base + k % 16 / 2) 1) (4 * (k % 2)) 4
  else if elemBits fmt = 16 then leAt hop (base + 2 * (k % 4)) 2
  else leAt hop (base + k % 8) 1

/-- The exponent q of R118: every finite value of the format is a multiple of 2^q. -/
def fmtQ (fmt : Nat) : Int :=
  match fmt with
  | 2 => -1 | 3 => -9 | 4 => -16 | 5 => -24 | 6 => -133
  | _ => 0

/-- A finite value as a multiple of 2^q of its format; a non-finite one counts zero (R57). -/
def inUnits (fmt : Nat) : FVal → Int
  | .fin n m e => sgn n (m * 2 ^ (e - fmtQ fmt).toNat)
  | .inf _ => 0
  | .nan _ => 0

/-- Where an operand side stands after its descriptor is read: format, scale, zero point, its rows' scratchpad address. -/
structure Side where
  fmt   : Nat
  scale : BitVec 32
  zp    : Nat
  row   : Nat
  deriving DecidableEq, Repr

/-- Read the descriptor of an operand side; the code and address of the fault if there is one (R77, R216, R217). -/
def State.readSide (s : State) (c src va : Nat) : State × (Nat × Nat ⊕ Side) :=
  let r := s.readDesc (s.agent c 4) va
  match r.2 with
  | .bad code addr => (r.1, .inl (code, addr))
  | .ok d =>
    if !operandFormat d.fmt then (r.1, .inl (0x0106, va))
    else if src = 0 && (!inAperture d.base || d.base % 512 != 0) then (r.1, .inl (0x0107, va))
    else (r.1, .inr { fmt := d.fmt, scale := d.scale, zp := d.zp, row := scratchOf d.base / 512 })

/-- Blocks one after the other, as one. -/
def joinBlocks (l : List HopBlock) : HopBlock :=
  { data := l.flatMap fun b => b.data, poison := l.any fun b => b.poison, tabs := (l.flatMap fun b => b.tabs).eraseDups
    src := l.flatMap fun b => b.src }

/-- The blocks that one side has when a pass starts: rows of scratchpad, blocks already delivered, or the replayed buffer. Bytes,
poison, and what remains of the delivered blocks. -/
def State.fillSide (s : State) (c src : Nat) (d : Side) (k : Nat) (stream : List HopBlock) (last : Option (HopBlock × Nat)) :
    State × HopBlock × List HopBlock :=
  let n := passBlocks d.fmt k
  if src = 0 then
    let r := s.readRows c d.row n
    (r.1, { data := r.2.1, poison := r.2.2 }, stream)
  else if src = 1 then (s, joinBlocks (stream.take n), stream.drop n)
  else match last with
    | some l => (s, l.1, stream)
    | none => (s, { data := [] }, stream)

/-! ## Preloads (R85, R110, R111) -/

/-- The tile that a preload gives at a window: elements, flags and where they came from. -/
structure Preloaded where
  acc    : Tab Acc := []
  lost   : Bool := false
  past   : Bool := false
  flags  : Nat := 0
  kfirst : Option Nat := none
  window : Option Int := none
  poison : Bool := false
  deriving DecidableEq, Repr

/-- Elements (i, j) of an m × n tile. -/
def tileElems (m n : Nat) : List (Nat × Nat) := (List.range m).flatMap fun i => (List.range n).map fun j => (i, j)

/-- Enter the values of a preload as terms (R103, R107): none stands for a non-finite source. -/
def preTerms (p : PassBlk) (q : PassQ) (w : Int) (val : Nat → Nat → Option Exact) : Preloaded :=
  (tileElems p.m p.n).foldl (fun (r : Preloaded) e =>
    match val e.1 e.2 with
    | none => { r with acc := Tab.put r.acc 0 (64 * e.1 + e.2) accNaR }
    | some v =>
      let t := srUnits v w (drawByte q.key 1 q.stream p.k0 (p.orgR + e.1) (p.orgC + e.2))
      { r with acc := Tab.put r.acc 0 (64 * e.1 + e.2) (BitVec.ofInt 80 (max (-accLim) (min accLim t.1))), lost := r.lost || t.2
               past := r.past || !inLim t.1 }) {}

/-- The value of a partial in product units (R110). -/
def partialValue (wide : Bool) (win : Int) (v : Nat) : Option Exact :=
  if wide then (if v = wNaR then none else some (exDy (signN 64 v) win))
  else match elemValue 7 v with
    | .fin n m e => some (exDy (sgn n m) e)
    | _ => none

/-- A real value divided by s_A × s_B (R110). -/
def byScales (sa sb : BitVec 32) (v : Exact) : Exact :=
  match fDecode 8 23 sa.toNat, fDecode 8 23 sb.toNat with
  | .fin _ m e, .fin _ n f => (v.divDy m e).divDy n f
  | _, _ => v

/-- The real value of a code of a descriptor (R58). -/
def Desc.real (d : Desc) (v : Nat) : Option Exact :=
  match fDecode 8 23 d.scale.toNat, elemValue d.fmt v with
  | .fin _ m e, .fin n k f =>
    let x := (exDy (sgn n k) f).add { n := if d.fmt ≤ 1 then -(d.zp : Int) else 0, d := 1 }
    some ((⟨x.n * m, x.d⟩ : Exact).scale e)
  | _, _ => none

/-- A preload from the bytes of partials and their trailer: TILE or RETAIN (R86, R110). -/
def prePartials (p : PassBlk) (q : PassQ) (w : Int) (t : Trailer) (b : Bytes) (poison : Bool) : Preloaded :=
  let wide := t.fmt = 1
  let v := preTerms p q w fun i j => partialValue wide t.window (partialElem wide b i j)
  { v with flags := t.flags % 16, kfirst := some t.kfirst, window := if wide then some t.window else none, poison }

/-- The same from the rows of scratchpad that hold them. -/
def State.preRows (s : State) (c : Nat) (p : PassBlk) (q : PassQ) (w : Int) (t : Trailer) (row : Nat) : State × Preloaded :=
  let r := s.readRows c (row / 512) (partialRows (t.fmt = 1) p.m)
  (r.1, prePartials p q w t r.2.1 r.2.2)

/-- Read rows of a tensor, n elements each: bytes of each row and poison, or the fault. -/
def State.readTensorRows (s : State) (g : Agent) (d : Desc) (rows n : Nat) : State × (Nat × Nat ⊕ List Bytes × Bool) :=
  (List.range rows).foldl (fun a i =>
    match a.2 with
    | .inl f => (a.1, .inl f)
    | .inr l =>
      let r := a.1.load g (d.rowVa i) (rowLen d.fmt n)
      match r.2 with
      | .bad code addr => (r.1, .inl (code, addr))
      | .ok b x => (r.1, .inr (l.1 ++ [b], l.2 || x))) (s, .inr ([], false))

/-- A preload from its source at a window, or the fault that it finds (R110, R111, R216). RETAIN takes the values that the slot's previous
drain delivered, and in a repeat (`again`) the rows that it wrote (R86, R109). A BIAS or RESID descriptor smaller than the tile is no fault:
its elements stand where BASE and STRIDE put them (log entry 121). -/
def State.readPreload (s : State) (c : Nat) (p : PassBlk) (q : PassQ) (t : TileSlot) (sa sb : BitVec 32) (w : Int) (again : Bool) :
    State × (Nat × Nat ⊕ Preloaded) :=
  if p.preload = 0 then (s, .inr {})
  else if p.preload = 4 then
    match t.prevTrailer with
    | none => (s, .inl (0x0106, 0))
    | some tr =>
      if again then (let r := s.preRows c p q w tr t.prevDest; (r.1, .inr r.2))
      else (s, .inr (prePartials p q w tr (t.prevRows.flatMap id) t.prevPoison))
  else if p.preload = 1 then
    let r := s.readScratch c p.preTrailer 64
    let tr := trailerOf r.2.1
    if (tr.fmt != 1 && tr.fmt != 2) || tr.m != p.m || tr.n != p.n || tr.scaleA != sa || tr.scaleB != sb then
      (r.1, .inl (0x0106, p.preTrailer))
    else if !r.1.inShelves c p.preSrc (512 * partialRows (tr.fmt == 1) p.m) then (r.1, .inl (0x0102, p.preSrc))
    else
      let v := r.1.preRows c p q w tr p.preSrc
      (v.1, .inr { v.2 with poison := v.2.poison || r.2.2 })
  else
    let g := s.agent c 4
    let r := s.readDesc g p.preSrc
    match r.2 with
    | .bad code addr => (r.1, .inl (code, addr))
    | .ok d =>
      let fmtOk := if p.preload = 2 then [5, 6, 7, 10].contains d.fmt else quantFormat d.fmt
      if !fmtOk then (r.1, .inl (0x0106, p.preSrc))
      else
        let v := r.1.readTensorRows g d (if p.preload = 2 then 1 else p.m) p.n
        match v.2 with
        | .inl f => (v.1, .inl f)
        | .inr l =>
          let code := fun i j => rowCode d.fmt (l.1.getD (if p.preload = 2 then 0 else i) []) j
          -- a W64 bias is read against the issued window (R110)
          let val := fun i j =>
            if d.fmt = 10 then partialValue true p.window (code i j) else (d.real (code i j)).map (byScales sa sb)
          (v.1, .inr { preTerms p q w val with poison := l.2 })

/-- Put a preload into a slot. -/
def TileSlot.preloaded (t : TileSlot) (v : Preloaded) : TileSlot :=
  { t with acc := v.acc, flags := v.flags + (if v.lost && v.flags % 2 = 0 then afInexact else 0), preFlags := v.flags
           preKfirst := v.kfirst, preWindow := v.window, preOver := v.past, poisoned := v.poison }

/-- The preload of a queued pass into a slot, at its issued window, its check passed; the slot's update after its last row (R144). -/
def State.doPreload (s : State) (c a : Nat) (q : PassQ) (b : Bool) (done : TileSlot → TileSlot) : State :=
  let p := passOf q.block
  let ra := s.readSide c p.srcA p.descA
  match ra.2 with
  | .inl f => ra.1.passFault c a f.1 q f.2
  | .inr da =>
    let rb := ra.1.readSide c p.srcB p.descB
    match rb.2 with
    | .inl f => rb.1.passFault c a f.1 q f.2
    | .inr db =>
      let r := rb.1.readPreload c p q ((rb.1.array c a).slot b) da.scale db.scale p.window false
      match r.2 with
      | .inl f => r.1.passFault c a f.1 q f.2
      | .inr v =>
        (r.1.modArray c a fun y => y.modSlot b fun t => done (t.preloaded v)).sluiceUpdate c p.slPre false

/-- Does a pass's preload need a shift (R85)? -/
def PassBlk.needsShift (p : PassBlk) : Bool := p.preload != 0

/-- The outcome of a preload read's check; a RETAIN preload reads nothing (R85). -/
def State.preCheck (s : State) (c : Nat) (p : PassBlk) : Checked :=
  if p.preload = 4 then .pass else s.sluiceCheck c p.slPre false

/-- PRELOAD_SHIFT (R85): a separate shift for the first pass not yet started, when its slot is empty and its check passes; the
cycles waited count as slot stalls. -/
def execPreloadShift (c a cycles : Nat) (s : State) : Host.Outcome State Fault Refusal :=
  let y := s.array c a
  match y.queue[y.started]? with
  | none => idle s
  | some q =>
    let p := passOf q.block
    when (s.coreOn c && a < 8 && p.needsShift && (y.slot y.next).use == .empty) s fun s =>
      match s.preCheck c p with
      | .stall _ => s
      | .notReady n => s.passFault c a 0x0104 q n
      | .pass => ((s.bumpA c a 5 cycles).clearStall c (4 + a)).doPreload c a q y.next fun t => { t with use := .preload }

/-! ## PASS_START -/

/-- The last attempt of a pass (R108)? -/
def TileSlot.lastAttempt (t : TileSlot) : Bool := 3 ≤ t.attempt || 255 < t.window + 8

/-- Raise ACC_SATURATED once for the command (R108). -/
def State.accSaturated (s : State) (c a : Nat) : State :=
  match s.ownerOf c, s.cmd (s.core c).handle with
  | some (x, _), some m =>
    if m.accSat then s
    else (s.modCmd m.handle fun m => { m with accSat := true }).raise
      { code := 0x0302, ctx := some x, handle := some m.handle, core := some c, unit := 4, index := a }
  | _, _ => s

/-- Keep an element that left ±LIM in the last attempt at its limit (R108). -/
def TileSlot.saturatePre (t : TileSlot) : TileSlot :=
  let hit := (t.acc.filter fun e => e.2.toInt = accLim || e.2.toInt = -accLim).map fun e => e.1
  { t with satSet := hit, flags := t.flags ||| afSaturated }

/-- Begin an attempt whose operands and preload stand in the slot: an overflow of the preload abandons it, or saturates in the last
attempt (R107, R108). -/
def State.beginAttempt (s : State) (c a : Nat) (b : Bool) : State :=
  let t := (s.array c a).slot b
  if t.preOver then
    if t.lastAttempt then (s.modArray c a fun y => y.modSlot b TileSlot.saturatePre).accSaturated c a
    else s.modArray c a fun y => y.modSlot b fun t => { t with use := .abandoned }
  else s

/-- The destination descriptor of a final drain; none for a partial drain (R77, R216). -/
def State.readDest (s : State) (c : Nat) (p : PassBlk) : State × (Nat × Nat ⊕ Option Desc) :=
  if p.drain = 0 then
    let r := s.readDesc (s.agent c 4) p.dest
    match r.2 with
    | .bad code addr => (r.1, .inl (code, addr))
    | .ok d => if quantFormat d.fmt then (r.1, .inr (some d)) else (r.1, .inl (0x0106, p.dest))
  else (s, .inr none)

/-- Start the first queued pass in its slot: descriptors, checks, fills and their updates (R82, R143, R216 to R218). -/
def State.startPass (s : State) (c a : Nat) (q : PassQ) : State :=
  let p := passOf q.block
  let ra := s.readSide c p.srcA p.descA
  match ra.2 with
  | .inl f => ra.1.passFault c a f.1 q f.2
  | .inr da =>
    let rb := ra.1.readSide c p.srcB p.descB
    match rb.2 with
    | .inl f => rb.1.passFault c a f.1 q f.2
    | .inr db =>
      let s := rb.1
      let y := s.array c a
      if p.srcB = 2 && !(y.lastB.any fun l => l.2 == db.fmt) then s.passFault c a 0x0106 q p.descB
      else if (p.srcA = 0 && !s.inShelves c (512 * da.row) (512 * passBlocks da.fmt p.k)) ||
          (p.srcB = 0 && !s.inShelves c (512 * db.row) (512 * passBlocks db.fmt p.k)) then s.passFault c a 0x0102 q 0
      else
        let rd := s.readDest c p
        let s := rd.1
        match rd.2 with
        | .inl f => s.passFault c a f.1 q f.2
        | .inr dest =>
          let fa := s.fillSide c p.srcA da p.k y.streamA none
          let fb := fa.1.fillSide c p.srcB db p.k y.streamB y.lastB
          let s := fb.1
          let put : TileSlot → TileSlot := fun t =>
            let t := if p.needsShift then t else { t with acc := [], flags := 0, preFlags := 0, preKfirst := none, preWindow := none,
                                                          preOver := false, poisoned := false }
            { t with
              use := .pass, pass := some q, satSet := [], window := p.window, attempt := 0, nextK := 0, quarter := 0, markA := [],
              markB := [], sumA := [], sumB := [], hopA := fa.2.1.data, hopB := fb.2.1.data,
              tabs := (fa.2.1.tabs ++ fb.2.1.tabs).eraseDups, srcsA := fa.2.1.src, srcsB := fb.2.1.src, fmtA := da.fmt, fmtB := db.fmt, zA := da.zp,
              zB := db.zp, scaleA := da.scale, scaleB := db.scale, poisoned := t.poisoned || fa.2.1.poison || fb.2.1.poison, poisonB := fb.2.1.poison,
              replay := false, dest }
          let b := y.next
          let s := s.modArray c a fun y => { y.modSlot b put with next := !b, streamA := fa.2.2, streamB := fb.2.2 }
          ((s.sluiceUpdate c p.slA false).sluiceUpdate c p.slB false).beginAttempt c a b

/-- May the first pass not yet started begin: its slot is ready, and the pass before it has issued its last step (R82, R83)? -/
def ArraySt.startReady (y : ArraySt) (p : PassBlk) : Bool :=
  (y.slot y.next).use == (if p.needsShift then .preload else .empty) && (y.slot !y.next).use != .pass &&
    (y.slot !y.next).use != .abandoned

/-- The check of both fills (R143). -/
def State.fillCheck (s : State) (c : Nat) (p : PassBlk) : Checked :=
  match if p.srcA = 0 then s.sluiceCheck c p.slA false else .pass with
  | .pass => if p.srcB = 0 then s.sluiceCheck c p.slB false else .pass
  | r => r

/-- PASS_START (R82). The three counts are the cycles waited for A, for B and for the slot (R98). -/
def execPassStart (c a stallA stallB stallSlot : Nat) (s : State) : Host.Outcome State Fault Refusal :=
  let y := s.array c a
  match y.queue[y.started]? with
  | none => idle s
  | some q =>
    let p := passOf q.block
    when (s.coreOn c && a < 8 && y.startReady p) s fun s =>
      match s.fillCheck c p with
      | .stall _ => s
      | .notReady n => s.passFault c a 0x0104 q n
      | .pass => ((((s.bumpA c a 3 stallA).bumpA c a 4 stallB).bumpA c a 5 stallSlot).clearStall c (4 + a)).startPass c a q

/-! ## Operand steps (R74, R103 to R108) -/

/-- What adding terms makes of a tile. -/
structure Adding where
  acc  : Tab Acc
  sats : List Nat
  lost : Bool := false
  past : Bool := false
  deriving DecidableEq, Repr

/-- Add one exact term to an element (R103, R107, R108): NaR and saturated elements take none; in the last attempt a sum that leaves
±LIM saturates, before it the attempt is lost. -/
def Adding.term (r : Adding) (last : Bool) (w : Int) (key u : Nat) (p : Exact) : Adding :=
  let old := Tab.look r.acc 0 key
  if old = accNaR || key ∈ r.sats then r
  else
    let t := srUnits p w u
    let v := old.toInt + t.1
    if inLim v then { r with acc := Tab.put r.acc 0 key (BitVec.ofInt 80 v), lost := r.lost || t.2 }
    else if last then
      { r with acc := Tab.put r.acc 0 key (BitVec.ofInt 80 (if v < 0 then -accLim else accLim)), sats := key :: r.sats
               lost := r.lost || t.2, past := true }
    else { r with past := true }

/-- The base byte b(i, j) of a pass (R105, R106). -/
def baseByte (q : PassQ) (p : PassBlk) (i j : Nat) : Nat := drawByte q.key 0 q.stream 0 (p.orgR + i) (p.orgC + j)

/-- One operand step k: products, sums and marks (R74, R80, R106). -/
def TileSlot.step (t : TileSlot) (q : PassQ) (p : PassBlk) (k : Nat) : TileSlot × Bool :=
  let va := (List.range p.m).map fun i => elemValue t.fmtA (hopCode t.fmtA t.hopA i k)
  let vb := (List.range p.n).map fun j => elemValue t.fmtB (hopCode t.fmtB t.hopB j k)
  let ia := va.map (inUnits t.fmtA)
  let ib := vb.map (inUnits t.fmtB)
  let e := fmtQ t.fmtA + fmtQ t.fmtB
  let r := (tileElems p.m p.n).foldl (fun (r : Adding) g =>
    let n := ia.getD g.1 0 * ib.getD g.2 0
    if n = 0 then r
    else r.term t.lastAttempt t.window (64 * g.1 + g.2) (prodByte (baseByte q p g.1 g.2) (p.k0 + k)) (exDy n e))
    { acc := t.acc, sats := t.satSet }
  let bad : List FVal → List Nat → List Nat := fun l old =>
    (l.zipIdx.filter fun v => !v.1.finite).foldl (fun a v => addNew v.2 a) old
  let sum : List Int → Tab Int → Tab Int := fun l old => l.zipIdx.foldl (fun a v => Tab.upd a 0 v.2 (· + v.1)) old
  ({ t with acc := r.acc, satSet := r.sats, flags := if r.lost then t.flags ||| afInexact else t.flags, markA := bad va t.markA
            markB := bad vb t.markB, sumA := sum ia t.sumA, sumB := sum ib t.sumB, nextK := k + 1 }, r.past)

/-- The correction term of R62 as one exact term, with the byte for kg = k0 + K (R106). -/
def TileSlot.correct (t : TileSlot) (q : PassQ) (p : PassBlk) : TileSlot × Bool :=
  let r := (tileElems p.m p.n).foldl (fun (r : Adding) g =>
    let ca := (exDy (Tab.look t.sumA 0 g.1) (fmtQ t.fmtA)).n * -(t.zB : Int)
    let cb := (exDy (Tab.look t.sumB 0 g.2) (fmtQ t.fmtB)).n * -(t.zA : Int)
    let v := ((⟨ca, (exDy (Tab.look t.sumA 0 g.1) (fmtQ t.fmtA)).d⟩ : Exact).add
      ⟨cb, (exDy (Tab.look t.sumB 0 g.2) (fmtQ t.fmtB)).d⟩).add ⟨(p.k * t.zA * t.zB : Nat), 1⟩
    if v.n = 0 then r
    else r.term t.lastAttempt t.window (64 * g.1 + g.2) (prodByte (baseByte q p g.1 g.2) (p.k0 + p.k)) v)
    { acc := t.acc, sats := t.satSet }
  ({ t with acc := r.acc, satSet := r.sats, flags := if r.lost then t.flags ||| afInexact else t.flags }, r.past)

/-- At the end of an attempt every element of a marked row or column becomes NaR (R107). -/
def TileSlot.markNaR (t : TileSlot) (p : PassBlk) : TileSlot :=
  { t with acc := (tileElems p.m p.n).foldl (fun a g =>
      if g.1 ∈ t.markA || g.2 ∈ t.markB then Tab.put a 0 (64 * g.1 + g.2) accNaR else a) t.acc }

/-- Is a pass at least one side of which is 16-bit (R75)? -/
def TileSlot.wide16 (t : TileSlot) : Bool := elemBits t.fmtA == 16 || elemBits t.fmtB == 16

/-- The operand steps that an issue cycle completes (R75). -/
def TileSlot.cycleSteps (t : TileSlot) (p : PassBlk) : List Nat :=
  if t.wide16 then (if t.quarter = 3 then [t.nextK] else [])
  else if elemBits t.fmtA = 4 && elemBits t.fmtB = 4 then (if t.nextK + 1 < p.k then [t.nextK, t.nextK + 1] else [t.nextK])
  else [t.nextK]

/-- Bring the streamed blocks that the next steps need into the hopper; none if a block has not been delivered (R218). -/
def pullBlocks (src fmt k : Nat) (hop : Bytes) (stream : List HopBlock) : Option (HopBlock × List HopBlock) :=
  let need := k / blockSteps fmt + 1 - hop.length / 512
  if need = 0 then some ({ data := hop }, stream)
  else if src = 1 && need ≤ stream.length then
    some (joinBlocks ({ data := hop } :: stream.take need), stream.drop need)
  else none

/-- Blocks of a hopper that a pass in progress has not consumed: its buffers of 16 blocks become free one at a time, and the rows of a
descriptor source follow as buffers become free (R79). -/
def TileSlot.heldBlocks (t : TileSlot) (fmt len : Nat) : Nat :=
  if t.use == .pass || t.use == .abandoned then min 32 (len / 512 - 16 * (t.nextK / blockSteps fmt / 16)) else 0

/-- Blocks that stand in the A-hopper of an array. -/
def ArraySt.heldA (y : ArraySt) : Nat := (y.slot !y.next).heldBlocks (y.slot !y.next).fmtA (y.slot !y.next).hopA.length + y.streamA.length

/-- Blocks that stand in its B-hopper, with a buffer that the next pass replays (R79, R218). -/
def ArraySt.heldB (y : ArraySt) : Nat :=
  let t := y.slot !y.next
  let kept := match y.queue[y.started]?, y.lastB with
    | some q, some l => if (passOf q.block).srcB = 2 && t.use != .pass && t.use != .abandoned then l.1.data.length / 512 else 0
    | _, _ => 0
  t.heldBlocks t.fmtB t.hopB.length + kept + y.streamB.length

/-- A parity error of a pass's data (R92): its rows will be poisoned; column 0xFFFF with the hopper row, or a physical column. -/
def State.parityError (s : State) (c a : Nat) (b : Bool) (col row : Nat) : State :=
  let s := s.modArray c a fun y => y.modSlot b fun t => { t with poisoned := true }
  let s := s.bumpA c a 7 1
  let s := match s.ownerOf c with
    | some (x, _) => s.raise { code := 0x0301, ctx := some x, handle := some (s.core c).handle, core := some c, unit := 4, index := a,
                               detail := [col, if col = 0xFFFF then row else 0] }
    | none => s
  s.noteParity (s.physArray c a) col

/-- After an overflow: saturation in the last attempt, else the attempt is abandoned (R108). -/
def State.afterTerms (s : State) (c a : Nat) (b : Bool) (last past : Bool) : State :=
  if !past then s
  else if last then (s.modArray c a fun y => y.modSlot b fun t => { t with flags := t.flags ||| afSaturated }).accSaturated c a
  else s.modArray c a fun y => y.modSlot b fun t => { t with use := .abandoned }

/-- Take the steps of one issue cycle, and the correction term and the marks after the last (R74, R107). -/
def TileSlot.issue (t : TileSlot) (q : PassQ) (p : PassBlk) : TileSlot × Bool :=
  let r := (t.cycleSteps p).foldl (fun (a : TileSlot × Bool) k =>
    if a.2 && !t.lastAttempt then a else let r := a.1.step q p k; (r.1, a.2 || r.2)) (t, false)
  let u := { r.1 with quarter := if t.wide16 then (t.quarter + 1) % 4 else 0 }
  if p.k ≤ u.nextK && (!r.2 || t.lastAttempt) then
    let f := u.correct q p
    if f.2 && !t.lastAttempt then (f.1, true)
    else ({ f.1.markNaR p with use := .landed }, r.2 || f.2)
  else (u, r.2)

/-- What the next issue cycle of the pass in progress takes: its slot, its block, and both operands with what remains of the delivered blocks.
None if no pass is in progress, or an operand is still missing. -/
def ArraySt.operands (y : ArraySt) : Option (PassQ × (HopBlock × List HopBlock) × (HopBlock × List HopBlock)) :=
  let t := y.slot !y.next
  match t.pass with
  | none => none
  | some q =>
    let p := passOf q.block
    let lastK := match (t.cycleSteps p).getLast? with
      | some k => k
      | none => t.nextK
    if t.use == .pass && !t.replay then
      match pullBlocks p.srcA t.fmtA lastK t.hopA y.streamA, pullBlocks p.srcB t.fmtB lastK t.hopB y.streamB with
      | some ha, some hb => some (q, ha, hb)
      | _, _ => none
    else none

/-- The activity of the array that an index is bound to (R96). -/
def State.activity (s : State) (c a : Nat) : Activity := Tab.look s.units.activity {} (s.physArray c a)

/-- Do operands wait in an array (R96): its core runs, and its pass in progress could issue? -/
def State.operandsWait (s : State) (c a : Nat) : Bool := s.coreOn c && a < 8 && (s.array c a).operands.isSome

/-- Count the cycles at level 8 in which an operand was missing past the filler threshold, for A and for B (R98, R288). -/
def State.countMissing (s : State) (c a stallA stallB : Nat) : State :=
  if (s.activity c a).level = 8 then (s.bumpA c a 3 stallA).bumpA c a 4 stallB else s

/-- OPERAND_STEP (R74): one issue cycle of the pass in progress, with what the array meets in it. -/
def execOperandStep (c a : Nat) (e : CycleIn) (s : State) : Host.Outcome State Fault Refusal :=
  let y := s.array c a
  let b := !y.next
  let ph := s.physArray c a
  match y.operands with
  | none => idle s
  | some (q, ha, hb) =>
      let p := passOf q.block
      when (s.operandsWait c a && (s.activity c a).level != 0) s fun s =>
        let s := s.countMissing c a e.stallA e.stallB
        let s := match e.parity with
          | some x => s.parityError c a b x.1 x.2
          | none => s
        let t := (s.array c a).slot b
        let u : TileSlot :=
          { t with
            hopA := ha.1.data, hopB := hb.1.data, tabs := (t.tabs ++ ha.1.tabs ++ hb.1.tabs).eraseDups
            srcsA := t.srcsA ++ ha.1.src, srcsB := t.srcsB ++ hb.1.src
            poisoned := t.poisoned || ha.1.poison || hb.1.poison
            poisonB := t.poisonB || hb.1.poison }
        let r := u.issue q p
        let s := s.modArray c a fun y => { y.modSlot b (fun _ => r.1) with
          streamA := ha.2, streamB := hb.2
          lastB := if r.1.use == .landed then some ({ data := r.1.hopB, poison := r.1.poisonB, tabs := r.1.tabs }, r.1.fmtB) else y.lastB }
        let s : State := { s with units := { s.units with activity := Tab.upd s.units.activity {} ph fun v => { v with gap := 0 } } }
        (s.bumpA c a 1 1).afterTerms c a b t.lastAttempt r.2

/-- ATTEMPT_RESTART (R108, R109): the next attempt, 8 higher, from the preload and step 0, with its operands delivered again; the
cycles since the abandoned attempt's first edge cycle are counted. -/
def execAttemptRestart (c a cycles : Nat) (s : State) : Host.Outcome State Fault Refusal :=
  let y := s.array c a
  let b := !y.next
  let t := y.slot b
  match t.pass with
  | none => idle s
  | some q =>
    when (s.coreOn c && a < 8 && t.use == .abandoned) s fun s =>
      let p := passOf q.block
      let s := (s.bumpA c a 8 1).bumpA c a 9 cycles
      let ra := s.readSide c p.srcA p.descA
      match ra.2 with
      | .inl f => ra.1.passFault c a f.1 q f.2
      | .inr da =>
        let rb := ra.1.readSide c p.srcB p.descB
        match rb.2 with
        | .inl f => rb.1.passFault c a f.1 q f.2
        | .inr db =>
          let rd := rb.1.readDest c p
          match rd.2 with
          | .inl f => rd.1.passFault c a f.1 q f.2
          | .inr dest =>
            let r := rd.1.readPreload c p q t da.scale db.scale (t.window + 8) true
            match r.2 with
            | .inl f => r.1.passFault c a f.1 q f.2
            | .inr v =>
              let fa := if p.srcA = 0 then r.1.fillSide c 0 da p.k [] none else (r.1, { data := t.hopA }, [])
              let fb := if p.srcB = 0 then fa.1.fillSide c 0 db p.k [] none else (fa.1, { data := t.hopB }, [])
              let s := fb.1.modArray c a fun y => y.modSlot b fun u =>
                { u.preloaded v with
                  use := .pass, satSet := [], window := t.window + 8, attempt := t.attempt + 1, nextK := 0, quarter := 0, markA := []
                  markB := [], sumA := [], sumB := [], hopA := fa.2.1.data, hopB := fb.2.1.data, fmtA := da.fmt, fmtB := db.fmt
                  zA := da.zp, zB := db.zp, scaleA := da.scale, scaleB := db.scale, dest
                  poisoned := t.poisoned || v.poison || fa.2.1.poison || fb.2.1.poison, replay := p.srcA == 1 || p.srcB == 1 }
              s.beginAttempt c a b

/-! ## Filler and activity levels (R95 to R97) -/

/-- FILLER_STEP (R95, R96): with no operand step to issue, a filler step, which changes no tile, sum, mark or flag; it is counted, and the gap
grows by the cycles since the array's latest step. With `ramp` it is a cycle in which operands wait and the level forbids issue. -/
def execFillerStep (c a : Nat) (e : FillerIn) (s : State) : Host.Outcome State Fault Refusal :=
  let ph := s.physArray c a
  let l := (s.activity c a).level
  when (s.serving && c < 128 && a < 8 && (if e.ramp then l < 8 && s.operandsWait c a else l != 0 && !s.operandsWait c a)) s fun s =>
    if e.ramp then s.bumpA c a 6 1
    else
      ({ s with units := { s.units with activity := Tab.upd s.units.activity {} ph fun v => { v with gap := v.gap + e.cycles } } } : State).bumpA
        c a 2 1

/-- Grant up to 32 of the requested changes of a quadrant, in ascending array number from the one after the latest grant (R97). -/
def grantOrder (q : Nat) (after : Option Nat) (requests : List (Nat × Bool)) : List (Nat × Bool) :=
  let mine := (requests.filter fun r => r.1 / 256 = q)
  let key : Nat × Bool → Nat := fun r => match after with
    | none => r.1
    | some g => if g < r.1 then r.1 else r.1 + 1024
  (sortBy key mine).take 32

/-- May an array, by its global number, ask for a change of its level (R96): to rise, with operands waiting below level 8; to fall, with a gap
that has reached the filler threshold (R99)? -/
def State.mayAsk (s : State) (r : Nat × Bool) : Bool :=
  let v := Tab.look s.units.activity {} r.1
  if r.2 then v.level < 8 && (List.range 8).any fun a => s.physArray (r.1 / 8) a == r.1 && s.operandsWait (r.1 / 8) a
  else v.level != 0 && s.params.filler ≤ v.gap

/-- LEVEL_CHANGE_GRANT (R96, R97): the grants of one 64-cycle interval, numbered from the turn boundary, each interval at most once. Each
request is a global array number and whether it asks to rise; an array asks once. An interval without a grant leaves the array granted last
as it is (log entry 123). -/
def execLevelChangeGrant (q : Nat) (l : LevelAsks) (s : State) : Host.Outcome State Fault Refusal :=
  when (q < 4 && s.serving && Tab.look s.units.interval 0 q ≤ l.interval) s fun s =>
    let asks := (l.asks.filter s.mayAsk).foldl (fun l r => if l.any fun e => e.1 == r.1 then l else l ++ [r]) []
    let g := grantOrder q (Tab.opt s.units.lastGrant q) asks
    let s : State := { s with units := { s.units with interval := Tab.put s.units.interval 0 q (l.interval + 1) } }
    let move : State → Nat × Bool → State := fun s r =>
      { s with units := { s.units with
          activity := Tab.upd s.units.activity {} r.1 fun v => { v with level := if r.2 then v.level + 1 else v.level - 1 }
          lastGrant := Tab.put s.units.lastGrant 1024 q r.1 } }
    g.foldl move s

/-! ## Drains (R82 to R87, R112 to R117) -/

/-- What a drain delivers for one element: bits, and the flags it adds. -/
def drainElem (p : PassBlk) (q : PassQ) (t : TileSlot) (i j : Nat) : Nat × Nat :=
  let acc := Tab.look t.acc 0 (64 * i + j)
  let u := drawByte q.key 2 q.stream (p.k0 + p.k) (p.orgR + i) (p.orgC + j)
  if p.drain = 1 then
    let r := wideDrain acc u
    (r.1, (if r.2 then afInexact else 0) + if acc = accNaR then afNonfinite else 0)
  else if p.drain = 2 then
    if acc = accNaR then (0x7FC00000, afNonfinite)
    else
      let r := srF32 (accExact acc t.window) u
      (r.1, (if r.2.1 then afInexact else 0) + if r.2.2 then afSaturated else 0)
  else if acc = accNaR then (0x7FC00000, afNonfinite)
  else
    let v := accExact acc t.window
    let v := match fDecode 8 23 t.scaleA.toNat, fDecode 8 23 t.scaleB.toNat with
      | .fin _ m e, .fin _ n f => (⟨v.n * m * n, v.d⟩ : Exact).scale (e + f)
      | _, _ => v
    let r := rneF32 v
    (r.1, if r.2 then afSaturated else 0)

/-- The flags of a pass at its drain (R116). -/
def TileSlot.drainFlags (t : TileSlot) (own : Nat) : Nat :=
  let shift := t.attempt != 0 || t.preWindow.any fun w => w != t.window
  (t.flags ||| t.preFlags ||| own ||| if shift then afShift else 0) % 16

/-- The conversion of a landed tile: the rows that leave it, the trailer of a partial drain, and the flags. -/
def TileSlot.drainOut (t : TileSlot) (p : PassBlk) (q : PassQ) (turn : BitVec 64) : List Bytes × Trailer × Nat :=
  let size := if p.drain = 1 then 8 else 4
  let cells := (List.range p.m).map fun i => (List.range p.n).map fun j => drainElem p q t i j
  let own := cells.foldl (fun a r => r.foldl (fun a e => a ||| e.2) a) 0
  let flags := t.drainFlags own
  let rows := cells.map fun r => partialRow size (r.map fun e => e.1)
  (rows, { window := t.window, fmt := p.drain, flags := flags + 16 * t.attempt, m := p.m, n := p.n, scaleA := t.scaleA
           scaleB := t.scaleB, kfirst := t.preKfirst.getD p.k0, kend := (p.k0 + p.k) % 2 ^ 48, turn }, flags)

/-- Begin the drain of a landed slot, its check passed; the next pass of the slot shares the shift if it can (R82, R85). -/
def State.beginDrain (s : State) (c a : Nat) (b : Bool) (q : PassQ) (parity : Option Nat) : State :=
  let p := passOf q.block
  let s := match parity with
    | some col => s.parityError c a b col 0
    | none => s
  let t := (s.array c a).slot b
  let o := t.drainOut p q s.turn.count
  let s := s.modArray c a fun y => { y.modSlot b (fun t =>
      { t with use := .draining, pass := none, acc := [], satSet := [], outRows := o.1
               outTrailer := if p.drain = 0 then none else some o.2.1, outPass := some q, outPoison := t.poisoned, tabs := []
               dest := none, outDest := t.dest, prevTrailer := if p.drain = 0 then none else some o.2.1
               prevRows := if p.drain = 0 then [] else o.1, prevPoison := t.poisoned, prevDest := p.dest, poisoned := false
               sharedPre := false })
      with queue := y.queue.drop 1 }
  let s := s.modCore c fun k => { k with accFlags := k.accFlags ||| o.2.2 }
  let s := s.modCmd (s.core c).handle fun m => { m with acc := m.acc ||| o.2.2 }
  let s := if o.2.2.testBit 0 then s.bumpA c a 11 1 else s
  let s := if o.2.2.testBit 2 then s.bumpA c a 10 1 else s
  match (s.array c a).queue[1]? with
  | none => s
  | some n =>
    let pn := passOf n.block
    if pn.needsShift && s.preCheck c pn = .pass then s.doPreload c a n b fun t => { t with sharedPre := true } else s

/-- DRAIN_BEGIN (R82): the oldest landed pass begins its drain once its drain check passes; the operand names the physical column of
a parity error in the drain shift (R92). -/
def execDrainBegin (c a : Nat) (parity : Option Nat) (s : State) : Host.Outcome State Fault Refusal :=
  let y := s.array c a
  match y.queue with
  | [] => idle s
  | q :: _ =>
    let b := y.slotOfEntry 0
    when (s.coreOn c && a < 8 && (y.slot b).use == .landed) s fun s =>
      match s.sluiceCheck c (passOf q.block).slDrain true with
      | .stall _ => s
      | .notReady n => s.passFault c a 0x0104 q n
      | .pass => (s.clearStall c (12 + a)).beginDrain c a b q parity

/-- Scratchpad writes of a partial drain: two Compact tile rows share a scratchpad row (R84). -/
def State.drainRows (s : State) (c : Nat) (p : PassBlk) (rows : List Bytes) (poison : Bool) : State :=
  (rows.zipIdx.foldl (fun s r => s.writeRow c (p.dest + (if p.drain = 1 then 512 else 256) * r.2) r.1 poison) s)

/-- The writes of a final drain through the quantiser (R84, R194): elements outside the destination's rows and columns are not written
(log entry 11). -/
def State.drainFinal (s : State) (c : Nat) (p : PassBlk) (q : PassQ) (d : Desc) (rows : List Bytes) (poison : Bool) : State :=
  let g := s.agent c 6
  let s := (rows.zipIdx.filter fun r => r.2 < d.rows).foldl (fun s r =>
    s.quantRow g d r.2 { key := q.key, stream := q.stream, step := (p.k0 + p.k) % 2 ^ 48, row := p.orgR + r.2, col := p.orgC }
      ((List.range (min p.n d.cols)).map fun j => some (leAt r.1 (4 * j) 4))) s
  if poison then
    (List.range (min rows.length d.rows)).foldl (fun s i =>
      let va := d.rowVa i
      let n := rowLen d.fmt (min p.n d.cols)
      if inAperture va then
        s.poisonRows c (scratchOf va / 512) ((scratchOf va % 512 + n + 511) / 512)
      else s.vpoison g.ctx g.cmd {} va n) s
  else s

/-- A pass of a LAUNCH has written poisoned rows: its one part fails as POISONED (R92, R139, R348; log entry 19). -/
def State.notePoison (s : State) (c : Nat) (poison : Bool) : State :=
  if poison then s.modCmd (s.core c).handle fun m =>
    if m.op = 0x31 && (Tab.opt m.failed 0).isNone then { m with failed := Tab.ins m.failed 0 0x06 } else m
  else s

/-- DRAIN_DONE (R115, R144): all rows and the trailer are written, then the sluice slots are updated; a shared preload is in place, and the
cycles for which bank conflicts made the shared shift wait are slot stalls (R85). -/
def execDrainDone (c : Nat) (e : DrainEnd) (s : State) : Host.Outcome State Fault Refusal :=
  let a := e.array
  let y := s.array c a
  let b := if (y.slot y.next).use == .draining then y.next else !y.next
  let t := y.slot b
  match t.outPass with
  | none => idle s
  | some q =>
    when (s.coreOn c && a < 8 && t.use == .draining) s fun s =>
      let p := passOf q.block
      let s := if t.sharedPre then s.bumpA c a 5 e.cycles else s
      let free := fun (s : State) => (s.modArray c a fun y => y.modSlot b fun t =>
        { t with use := if t.sharedPre then .preload else .empty, outRows := [], outTrailer := none, outPass := none, outDest := none
                 outPoison := false, sharedPre := false }).bumpA c a 0 1
      match t.outTrailer with
      | some tr =>
        let s := ((s.notePoison c t.outPoison).drainRows c p t.outRows t.outPoison).narrowStores c p.trailer tr.bytes
        (free (s.writeBackRow c (p.trailer / 512))).sluiceUpdate c p.slDrain true
      | none =>
        let d := t.outDest.getD (descOf [])
        match s.rowsFault (s.agent c 6) d (List.range (min p.m d.rows)) with
        | some f => s.passFault c a f.1 q f.2
        | none => (free ((s.notePoison c t.outPoison).drainFinal c p q d t.outRows t.outPoison)).sluiceUpdate c p.slDrain true

/-! ## Tests (R92, R186, R561) -/

/-- Is the test of a unit due: the interval of R99 has passed since its latest test (R92, R186)? -/
def State.testDueNow (s : State) (u : Nat) : Bool :=
  max s.units.testedAll (Tab.look s.units.tested 0 u) + s.params.selfTest * ticksHour ≤ s.now

/-- Note the test of a unit. -/
def State.noteTest (s : State) (u : Nat) : State := { s with units := { s.units with tested := Tab.put s.units.tested 0 u s.now } }

/-- Has an array, by its global number, a pass queued, running or suspended (R92)? -/
def State.arrayInUse (s : State) (x : Nat) : Bool :=
  let c := x / 8
  ((s.core c).arrays.any fun e => s.physArray c e.1 == x && !e.2.quiet) ||
    s.ctxs.any fun e => e.2.lcores.any fun l => l.2.home == some c && l.2.saved.any fun k =>
      k.arrays.any fun y => (Tab.opt k.bind y.1).getD y.1 == x % 8 && !y.2.quiet

/-- ARRAY_SELF_TEST (R92, R186, R561): a unit that is not in use is tested when its test is due, or was asked for; each failing physical
column or lane is added to the field list. A re-test that was asked for removes the entries of the unit that pass; a core is returned if
nothing of it fails. -/
def execArraySelfTest (u : TestUnit) (failing : List Nat) (s : State) : Host.Outcome State Fault Refusal :=
  let retest := decide (u ∈ s.fw.retests)
  let ask : State → State := fun s => { s with fw := { s.fw with retests := s.fw.retests.filter (· != u), fieldDirty := s.fw.fieldDirty || retest } }
  match u with
  | .array x =>
    when (s.serving && x < 1024 && !s.arrayInUse x && (retest || x ∈ s.units.testDue || s.testDueNow x)) s fun s =>
      let s := (ask s).noteTest x
      let s : State := { s with units := { s.units with testDue := s.units.testDue.filter (· != x) } }
      let s : State := if retest then { s with units := { s.units with
          fieldCols := Tab.upd s.units.fieldCols [] x fun l => l.filter fun p => p ∈ failing } } else s
      failing.foldl (fun s p => s.addCol x p) s
  | .lanes c =>
    when (s.serving && c < 128 && (s.core c).owner.isNone && (retest || s.testDueNow (1024 + c))) s fun s =>
      let s := (ask s).noteTest (1024 + c)
      let s : State := if retest then { s with units := { s.units with
          fieldLanes := Tab.upd s.units.fieldLanes [] c fun l => l.filter fun p => p ∈ failing } } else s
      failing.foldl (fun s p => s.addLane c p) s
  | .core c =>
    when (s.serving && c < 128 && !(s.core c).running && retest) s fun s =>
      let s := ask s
      if failing.isEmpty then
        { s with units := { s.units with withdrawn := s.units.withdrawn.filter (· != c), hangs := s.units.hangs.filter fun h => h.1 != c } }
      else s

end Sys2Proof.Machine
end

