-- ==== Sys2Proof/Machine/Sha.lean ====
section
/-! DEFINITION. SHA-512 (FIPS 180-4), which the spec uses for every digest (R264, R267, R496, R534). -/

namespace Sys2Proof.Machine

/-- The n 64-bit words of a number, the most significant first. -/
def shaSplit (n x : Nat) : List (BitVec 64) := (List.range n).map fun i => BitVec.ofNat 64 (x >>> (64 * (n - 1 - i)))

/-- The 80 round constants, eight to a number. -/
def shaK : List (BitVec 64) :=
  shaSplit 8
    0x428a2f98d728ae227137449123ef65cdb5c0fbcfec4d3b2fe9b5dba58189dbbc3956c25bf348b53859f111f1b605d019923f82a4af194f9bab1c5ed5da6d8118 ++ shaSplit 8
    0xd807aa98a303024212835b0145706fbe243185be4ee4b28c550c7dc3d5ffb4e272be5d74f27b896f80deb1fe3b1696b19bdc06a725c71235c19bf174cf692694 ++ shaSplit 8
    0xe49b69c19ef14ad2efbe4786384f25e30fc19dc68b8cd5b5240ca1cc77ac9c652de92c6f592b02754a7484aa6ea6e4835cb0a9dcbd41fbd476f988da831153b5 ++ shaSplit 8
    0x983e5152ee66dfaba831c66d2db43210b00327c898fb213fbf597fc7beef0ee4c6e00bf33da88fc2d5a79147930aa72506ca6351e003826f142929670a0e6e70 ++ shaSplit 8
    0x27b70a8546d22ffc2e1b21385c26c9264d2c6dfc5ac42aed53380d139d95b3df650a73548baf63de766a0abb3c77b2a881c2c92e47edaee692722c851482353b ++ shaSplit 8
    0xa2bfe8a14cf10364a81a664bbc423001c24b8b70d0f89791c76c51a30654be30d192e819d6ef5218d69906245565a910f40e35855771202a106aa07032bbd1b8 ++ shaSplit 8
    0x19a4c116b8d2d0c81e376c085141ab532748774cdf8eeb9934b0bcb5e19b48a8391c0cb3c5c95a634ed8aa4ae3418acb5b9cca4f7763e373682e6ff3d6b2b8a3 ++ shaSplit 8
    0x748f82ee5defb2fc78a5636f43172f6084c87814a1f0ab728cc702081a6439ec90befffa23631e28a4506cebde82bde9bef9a3f7b2c67915c67178f2e372532b ++ shaSplit 8
    0xca273eceea26619cd186b8c721c0c207eada7dd6cde0eb1ef57d4f7fee6ed17806f067aa72176fba0a637dc5a2c898a6113f9804bef90dae1b710b35131c471b ++ shaSplit 8
    0x28db77f523047d8432caab7b40c724933c9ebe0a15c9bebc431d67c49c100d4c4cc5d4becb3e42b6597f299cfc657e2a5fcb6fab3ad6faec6c44198c4a475817

/-- The initial hash value. -/
def shaInit : List (BitVec 64) :=
  shaSplit 8
    0x6a09e667f3bcc908bb67ae8584caa73b3c6ef372fe94f82ba54ff53a5f1d36f1510e527fade682d19b05688c2b3e6c1f1f83d9abfb41bd6b5be0cd19137e2179

/-- The exclusive or of a word rotated right by each of some amounts. -/
def spin (by_ : List Nat) (x : BitVec 64) : BitVec 64 := by_.foldl (fun a n => a ^^^ x.rotateRight n) 0

/-- The message schedule of a block, kept with its newest word first: each new word is made of the second, the seventh, the fifteenth and the
sixteenth before it. -/
def shaExtend : Nat → List (BitVec 64) → List (BitVec 64)
  | 0, l => l
  | n + 1, l =>
    let back : Nat → BitVec 64 := fun d => l.getD (d - 1) 0
    let low := spin [1, 8] (back 15) ^^^ back 15 >>> 7
    let high := spin [19, 61] (back 2) ^^^ back 2 >>> 6
    shaExtend n ((back 16 + low + back 7 + high) :: l)

/-- One round on the eight working variables, a first: two of them are new, and the others move on by one place. -/
def shaRound (v : List (BitVec 64)) (kw : BitVec 64 × BitVec 64) : List (BitVec 64) :=
  let x : Nat → BitVec 64 := fun i => v.getD i 0
  let choice := x 6 ^^^ (x 4 &&& (x 5 ^^^ x 6))
  let majority := (x 0 &&& x 1) ||| (x 2 &&& (x 0 ||| x 1))
  let fed := spin [14, 18, 41] (x 4) + choice + x 7 + kw.1 + kw.2
  (fed + spin [28, 34, 39] (x 0) + majority) :: v.take 3 ++ (x 3 + fed) :: (v.drop 4).take 3

/-- The big-endian 64-bit words of a block. -/
def shaWords : Nat → Bytes → List (BitVec 64)
  | 0, _ => []
  | n + 1, b => BitVec.ofNat 64 (ofLe (b.take 8).reverse) :: shaWords n (b.drop 8)

/-- One block. -/
def shaBlock (h : List (BitVec 64)) (b : Bytes) : List (BitVec 64) :=
  let w := (shaExtend 64 (shaWords 16 b).reverse).reverse
  let v := (shaK.zip w).foldl shaRound h
  (h.zip v).map fun p => p.1 + p.2

/-- All blocks of a padded message. -/
def shaLoop : Nat → List (BitVec 64) → Bytes → List (BitVec 64)
  | 0, h, _ => h
  | n + 1, h, b => shaLoop n (shaBlock h (b.take 128)) (b.drop 128)

/-- SHA-512 of a byte string, byte 0 of the digest in the least significant place. -/
def sha512 (m : Bytes) : Digest :=
  let n := m.length
  let pad := m ++ [0x80] ++ List.replicate ((239 - n % 128) % 128) 0 ++ (toLe 16 (8 * n)).reverse
  BitVec.ofNat 512 (ofLe ((shaLoop (pad.length / 128) shaInit pad).flatMap fun w => (toLe 8 w.toNat).reverse))

end Sys2Proof.Machine
end

