-- ==== Sys2Proof/Machine/Weights.lean ====
section
/-! DEFINITION. Weight containers (R264 to R273): the manifest and its checks, tables and the exponent code, blocks, and how a
generation's image is stored and read (R282, R283, R289). -/

namespace Sys2Proof.Machine

/-! ## Tables and the exponent code (R270 to R272) -/

/-- Exponent symbols of a coded format (R271). -/
def symbols (fmt : Nat) : Nat := if fmt = 3 then 16 else if fmt = 6 then 256 else 32

/-- Residue bits of an element (R270). -/
def residueBits (fmt : Nat) : Nat :=
  match fmt with
  | 3 => 4 | 4 => 3 | 6 => 8 | 5 => 11
  | _ => 0

/-- May blocks of a format be coded (R269)? -/
def codable (fmt : Nat) : Bool := [3, 4, 5, 6].contains fmt

/-- The 256 bytes of a table record as a table (R272). -/
def tableOf (b : Bytes) : Nat × CodeTable :=
  (leAt b 2 1, { fmt := leAt b 0 1, tgen := leAt b 1 1
                 lens := (List.range 256).map fun s => fieldN (leAt b (0x10 + s / 2) 1) (4 * (s % 2)) 4 })

/-- Does a table record obey R272? -/
def tableOk (b : Bytes) : Bool :=
  let t := tableOf b
  let n := symbols t.2.fmt
  codable t.2.fmt && t.1 < 16 && allZero (sliceAt b 3 13) && allZero (sliceAt b 0x90 112) && b.length == 256 &&
    t.2.lens.all (fun l => l ≤ 8) && (t.2.lens.drop n).all (fun l => l == 0) &&
    ((t.2.lens.take n).map fun l => if l = 0 then 0 else 2 ^ (8 - l)).sum == 256

/-- `canon` of R271: (length, code, symbol) of every symbol that has a code. -/
def canon (lens : List Nat) : List (Nat × Nat × Nat) :=
  ((List.range 8).foldl (fun (a : List (Nat × Nat × Nat) × Nat) i =>
    let r := lens.zipIdx.foldl (fun (a : List (Nat × Nat × Nat) × Nat) e =>
      if e.1 = i + 1 then ((i + 1, a.2, e.2) :: a.1, a.2 + 1) else a) a
    (r.1, r.2 * 2)) ([], 0)).1

/-- The bits of bytes, bit 7 of each byte first (R270). -/
def bitsMsb (b : Bytes) : List Bool := b.flatMap fun x => (List.range 8).map fun i => x.toNat.testBit (7 - i)

/-- One code from the front of a bit string: its symbol and the rest. -/
def nextSymbol (codes : List (Nat × Nat × Nat)) : Nat → Nat → Nat → List Bool → Option (Nat × List Bool)
  | 0, _, _, _ => none
  | _, _, _, [] => none
  | n + 1, l, v, b :: r =>
    let v := 2 * v + if b then 1 else 0
    match codes.find? fun c => c.1 == l + 1 && c.2.1 == v with
    | some c => some (c.2.2, r)
    | none => nextSymbol codes n (l + 1) v r

/-- The exponent symbols of n elements, and the bits that remain. -/
def nextSymbols (codes : List (Nat × Nat × Nat)) : Nat → List Bool → Option (List Nat × List Bool)
  | 0, b => some ([], b)
  | n + 1, b =>
    match nextSymbol codes 8 0 0 b with
    | none => none
    | some (s, r) => (nextSymbols codes n r).map fun x => (s :: x.1, x.2)

/-- `assemble` of R271: sign, exponent and mantissa in the format's places. -/
def assemble (fmt residue e : Nat) : Nat :=
  let m := if fmt = 3 then 3 else if fmt = 4 then 2 else if fmt = 5 then 10 else 7
  let eb := if fmt = 3 then 4 else if fmt = 6 then 8 else 5
  (residue / 2 ^ m) * 2 ^ (m + eb) + e * 2 ^ m + residue % 2 ^ m

/-- `expand` of R271: the 256 elements of a coded payload, and whether every bit after the last code is zero; none if the lengths
do not decode the block within its payload. -/
def expandCoded (fmt : Nat) (lens : List Nat) (pay : Bytes) : Option (List Nat × Bool) :=
  let rb := residueBits fmt
  let n := 32 * rb
  let res := ofLe (pay.take n)
  (nextSymbols (canon (lens.take (symbols fmt))) 256 (bitsMsb (pay.drop n))).map fun r =>
    (r.1.zipIdx.map fun e => assemble fmt (fieldN res (rb * e.2) rb) e.1, r.2.all fun b => !b)

/-- The 256 elements of a raw payload (R269). -/
def expandRaw (fmt : Nat) (pay : Bytes) : List Nat := (List.range 256).map fun i => rowCode fmt pay i

/-- The bytes of 256 elements as a raw payload. -/
def rawBlock (fmt : Nat) (codes : List Nat) : Bytes := codesRow fmt codes

/-- Bytes of a raw block. -/
def rawBytes (fmt : Nat) : Nat := 32 * elemBits fmt

/-- A block header (R269): slot, table generation, coded, LEN. -/
structure BlockHdr where
  slot : Nat
  tgen : Nat
  coded : Bool
  len  : Nat
  deriving DecidableEq, Repr

/-- The fields of a block header. -/
def blockHdrOf (v : Nat) : BlockHdr := { slot := fieldN v 28 4, tgen := fieldN v 20 8, coded := v.testBit 19, len := fieldN v 0 6 }

/-- Does a block header obey R269 for its tensor's format? -/
def blockHdrOk (fmt v : Nat) : Bool :=
  let h := blockHdrOf v
  fieldN v 6 13 == 0 &&
    (if h.coded then codable fmt && 16 * h.len ≤ rawBytes fmt else h.slot == 0 && h.tgen == 0 && 16 * h.len == rawBytes fmt)

/-! ## The manifest (R265 to R268, R272) -/

/-- A tensor entry (R266). -/
def tensorOf (b : Bytes) : Tensor :=
  { layer := leAt b 0 2, fmt := leAt b 4 1, zp := leAt b 5 1, k := fieldN (leAt b 8 4) 0 24, n := fieldN (leAt b 0x0C 4) 0 24
    scale := BitVec.ofNat 32 (leAt b 0x10 4), hdrOff := leAt b 0x18 8, runOff := leAt b 0x20 8, payOff := leAt b 0x28 8
    payBytes := leAt b 0x30 8 }

/-- Blocks of a tensor with panels of w columns (R268, R283). -/
def Tensor.blocks (t : Tensor) (w : Nat) : Nat := ceilDiv t.n w * ceilDiv t.k 4

/-- The three regions of a tensor in the image. -/
def Tensor.regions (t : Tensor) : List (Nat × Nat) :=
  [(t.hdrOff, 4 * t.blocks 64), (t.runOff, 8 * ceilDiv (t.blocks 64) 64), (t.payOff, t.payBytes)]

/-- Does a tensor entry obey R266? -/
def tensorOk (image layers : Nat) (b : Bytes) : Bool :=
  let t := tensorOf b
  leAt b 2 2 == 0 && (t.layer < layers || t.layer == 0xFFFF) && t.fmt ≤ 6 && scaleOk t.fmt t.scale t.zp && leAt b 6 2 == 0 &&
    leAt b 0x0B 1 == 0 && leAt b 0x0F 1 == 0 && t.k != 0 && t.n != 0 && leAt b 0x14 4 == 0 && leAt b 0x38 8 == 0 &&
    t.regions.all (fun r => r.1 % 64 == 0 && r.1 + r.2 ≤ image)

/-- Do the regions of two tensors keep apart (R266)? -/
def Tensor.apart (a b : Tensor) : Bool :=
  a.regions.all fun r => b.regions.all fun t => r.2 == 0 || t.2 == 0 || r.1 + r.2 ≤ t.1 || t.1 + t.2 ≤ r.1

/-- Does no tensor's region overlap another tensor's? -/
def allApart : List Tensor → Bool
  | [] => true
  | t :: r => r.all t.apart && allApart r

/-- The manifest in its bytes. -/
def manifestOf (b : Bytes) : Manifest :=
  let nt := leAt b 0x0D 1
  let n := leAt b 0x1C 4
  let ns := leAt b 0x18 4
  { encrypted := leAt b 8 1 % 2 == 1, shardLog2 := leAt b 0x0C 1, layers := leAt b 0x0E 2, imageBytes := leAt b 0x10 8
    kvHeads := leAt b 0x20 2, headWidth := leAt b 0x22 2, kvFmt := leAt b 0x24 1, kvZp := leAt b 0x25 1
    kvScale := BitVec.ofNat 32 (leAt b 0x28 4)
    tables := (List.range nt).map fun i => tableOf (sliceAt b (64 + 256 * i) 256)
    tensors := (List.range n).map fun i => tensorOf (sliceAt b (64 + 256 * nt + 64 * i) 64)
    shards := (List.range ns).map fun i =>
      let e := sliceAt b (64 + 256 * nt + 64 * n + 96 * i) 96
      (BitVec.ofNat 512 (leAt e 0 64), sliceAt e 64 12, sliceAt e 76 16) }

/-- Shards of an image (R264). -/
def shardCount (image log2 : Nat) : Nat := ceilDiv image (2 ^ log2)

/-- The checks 2 to 4 of R277 on a manifest's bytes: the failing status and DETAIL class, or the manifest. -/
def checkManifest (b : Bytes) : Nat ⊕ Manifest :=
  let m := manifestOf b
  let nt := leAt b 0x0D 1
  let n := leAt b 0x1C 4
  let ns := leAt b 0x18 4
  let body := 64 + 256 * nt
  if leAt b 0 4 != 0x43524C50 then .inl 0x02
  else if leAt b 4 2 != 1 || leAt b 6 2 != 0 then .inl 0x0E
  else if b.length < 64 || leAt b 8 4 / 2 != 0 || m.shardLog2 < 24 || 30 < m.shardLog2 || 16 < nt || m.layers = 0 || 4096 < m.layers ||
      m.imageBytes = 0 || 2 ^ 42 < m.imageBytes || ns != shardCount m.imageBytes m.shardLog2 || 65536 < ns || n = 0 || 2 ^ 20 < n ||
      m.kvHeads = 0 || 256 < m.kvHeads || m.headWidth = 0 || m.headWidth % 64 != 0 || 1024 < m.headWidth || 1 < m.kvFmt ||
      !scaleOk m.kvFmt m.kvScale m.kvZp || leAt b 0x26 2 != 0 || !allZero (sliceAt b 0x2C 20) ||
      b.length != body + 64 * n + 96 * ns then .inl 0x02
  else if !((List.range nt).all fun i => tableOk (sliceAt b (64 + 256 * i) 256)) ||
      (m.tables.map fun t => t.1).eraseDups.length != nt ||
      !((List.range n).all fun i => tensorOk m.imageBytes m.layers (sliceAt b (body + 64 * i) 64)) ||
      !allApart m.tensors ||
      !((List.range ns).all fun i => allZero (sliceAt b (body + 64 * n + 96 * i + 92) 4)) ||
      (!m.encrypted && (m.shards.any fun s => !allZero s.2.1 || !allZero s.2.2)) then .inl 0x02
  else .inr m

/-! ## Storage (R282, R283, R289) -/

/-- Stored offset of each tensor of a generation expanded at load: raw blocks, tensor after tensor. -/
def storedBase (m : Manifest) (w i : Nat) : Nat := ((m.tensors.take i).map fun t => t.blocks w * rawBytes t.fmt).sum

/-- Bytes of the stored image. -/
def storedBytes (m : Manifest) (atUse : Bool) (w : Nat) : Nat := if atUse then m.imageBytes else storedBase m w m.tensors.length

/-- The stored ranges of tensor i. -/
def storedRegions (m : Manifest) (atUse : Bool) (w i : Nat) : List (Nat × Nat) :=
  match m.tensors[i]? with
  | none => []
  | some t => if atUse then t.regions else [(storedBase m w i, t.blocks w * rawBytes t.fmt)]

/-- 2 MiB pages that byte ranges touch. -/
def pagesOf (l : List (Nat × Nat)) : List Nat :=
  (l.flatMap fun r => if r.2 = 0 then [] else (List.range ((r.1 + r.2 - 1) / Config.page - r.1 / Config.page + 1)).map fun i =>
    r.1 / Config.page + i).eraseDups

/-- The body of a generation of a context: its own, or that of the collection that it maps (R297). -/
def State.genBody (s : State) (x g : Nat) : Option GenBody :=
  match Tab.opt (s.ctx x).gens g with
  | none => none
  | some n => match n.ref with
    | none => some n.body
    | some id => (Tab.opt s.colls id).map fun k => k.body

/-- Is a loaded generation READY (R284, R291)? -/
def State.genReady (s : State) (x g : Nat) : Bool :=
  ((Tab.opt (s.ctx x).gens g).any fun n => n.loaded) && (s.genBody x g).any fun b => b.st == .ready

/-- Parts of a stored range in one 2 MiB page each: (offset, length). -/
def pagePieces (off n : Nat) : List (Nat × Nat) :=
  if n = 0 then []
  else (List.range ((off + n - 1) / Config.page - off / Config.page + 1)).map fun i =>
    let lo := max off ((off / Config.page + i) * Config.page)
    let hi := min (off + n) ((off / Config.page + i + 1) * Config.page)
    (lo, hi - lo)

/-- Read stored bytes of a generation: from its pages, in device memory or in the slower tier. -/
def State.imageRead (s : State) (x : Option Nat) (h : Option Word) (q : Req) (b : GenBody) (off n : Nat) : State × Bytes × Bool :=
  (pagePieces off n).foldl (fun a p =>
    match Tab.opt b.pages (p.1 / Config.page) with
    | some pg =>
      let r := a.1.pread x h q b.slot (pg * Config.page + p.1 % Config.page) p.2
      (r.1, a.2.1 ++ r.2.1, a.2.2 || r.2.2)
    | none => (a.1, a.2.1 ++ List.replicate p.2 0, a.2.2)) (s, [], false)

/-- Stored bytes without any effect, for checks by the firmware. -/
def State.imagePeek (s : State) (b : GenBody) (off n : Nat) : Bytes :=
  (pagePieces off n).flatMap fun p =>
    match Tab.opt b.pages (p.1 / Config.page) with
    | some pg => s.bytesAt (pg * Config.page + p.1 % Config.page) p.2
    | none => List.replicate p.2 0

/-- Is any codeword of a stored range poisoned? -/
def State.imagePoisoned (s : State) (b : GenBody) (off n : Nat) : Bool :=
  (pagePieces off n).any fun p =>
    match Tab.opt b.pages (p.1 / Config.page) with
    | some pg => (pieces (pg * Config.page + p.1 % Config.page) p.2).any fun q => (s.mem.tag q.1).poison
    | none => false

/-- Write stored bytes of a generation, in whole codewords where they cover them. -/
def State.imageWrite (s : State) (x : Option Nat) (h : Option Word) (b : GenBody) (off : Nat) (d : Bytes) (poison : Bool := false) : State :=
  ((pagePieces off d.length).foldl (fun (a : State × Bytes) p =>
    (match Tab.opt b.pages (p.1 / Config.page) with
     | some pg => a.1.pwrite x h b.slot (pg * Config.page + p.1 % Config.page) (a.2.take p.2) poison
     | none => a.1, a.2.drop p.2)) (s, d)).1

/-- Bytes filled up with zeros to whole codewords: what a shard is written as (R299). -/
def wholeCws (d : Bytes) : Bytes := fitTo (ceilDiv d.length 128 * 128) d

/-- The payload offset of block i within its tensor: from the run index and the headers since its entry (R266, R284). -/
def payloadAt (hdrs : Nat → Nat) (run : Nat → Nat) (i : Nat) : Nat :=
  run (i / 64) + ((List.range (i % 64)).map fun j => 16 * (blockHdrOf (hdrs (i / 64 * 64 + j))).len).sum

end Sys2Proof.Machine
end

