-- ==== Sys2Proof/Machine/Leat.lean ====
section
/-! DEFINITION. The leat (R219, R220, R275, R284 to R290, R303): LMOVE, LSTREAM and LWALK at issue, and their deliveries, one unit
of an operation at a time. A unit is one hopper block or scratchpad row of a stream or walk, or one row of a moved tensor. -/

namespace Sys2Proof.Machine

/-! ## The leat blocks (R219) -/

/-- Destination masks: A-hoppers and B-hoppers of an operation. -/
def LeatOp.masks (o : LeatOp) : Nat × Nat :=
  if o.kind = 1 then (0, leAt o.block 0x1C 1) else (leAt o.block 0x1D 1, leAt o.block 0x1C 1)

/-- Does an operation name a hopper? -/
def LeatOp.toHopper (o : LeatOp) : Bool := o.masks.1 != 0 || o.masks.2 != 0

/-- The scratchpad destination of a stream or walk. -/
def LeatOp.spDst (o : LeatOp) : Nat := leAt o.block 0x20 3

/-- The sluice words: source and destination. -/
def LeatOp.sluices (o : LeatOp) : Sluice × Sluice :=
  if o.kind = 0 then (sluiceOf (leAt o.block 0x10 4), sluiceOf (leAt o.block 0x14 4)) else ({}, sluiceOf (leAt o.block 0x24 4))

/-- Does a leat block keep its layout (R219, R220)? -/
def leatLayout (kind : Nat) (b : Bytes) : Bool :=
  match kind with
  | 0 => leAt b 6 2 == 0 && leAt b 0x0E 2 == 0 && sluiceLayout (leAt b 0x10 4) && sluiceLayout (leAt b 0x14 4) &&
      leAt b 0x18 4 == 0 && leAt b 0x1E 2 == 0 && allZero (sliceAt b 0x20 32) &&
      (leAt b 0x1C 1 == 0 || leAt b 0x1D 1 == 0) && (leAt b 0x1C 2 == 0 || leAt b 8 8 == 0)
  | 1 => leAt b 2 6 == 0 && leAt b 0x0C 4 == 0 && leAt b 0x16 2 == 0 && leAt b 0x1B 1 == 0 && leAt b 0x1D 3 == 0 &&
      leAt b 0x23 1 == 0 && sluiceLayout (leAt b 0x24 4) && allZero (sliceAt b 0x28 24)
  | _ => leAt b 4 4 == 0 && leAt b 0x0C 4 / 2 == 0 && leAt b 0x16 2 == 0 && leAt b 0x1B 1 == 0 && leAt b 0x1E 2 == 0 &&
      leAt b 0x23 1 == 0 && sluiceLayout (leAt b 0x24 4) && leAt b 0x2B 1 == 0 && allZero (sliceAt b 0x2C 20)

/-! ## Checks at issue -/

/-- A tensor that an LSTREAM names, with the body of its generation. -/
def State.streamTensor (s : State) (x : Nat) (b : Bytes) : Option (GenBody × Manifest × Tensor × Nat) :=
  match s.genBody x (leAt b 0 2) with
  | none => none
  | some g => match g.manifest with
    | none => none
    | some m => (m.tensors[leAt b 8 4]?).map fun t => (g, m, t, leAt b 8 4)

/-- Blocks of a tensor as its generation stores it. -/
def streamBlocks (g : GenBody) (t : Tensor) : Nat := t.blocks (if g.atUse then 64 else g.width)

/-- Key of a folio in a catalogue (R301). -/
def folioKey (layer head kind f : Nat) : Nat := ((layer * 256 + head) * 2 + kind) * 65536 + f

/-- Row length R and positions per folio T of a generation (R300). -/
def Manifest.rowBytes (m : Manifest) : Nat := if m.kvFmt = 1 then m.headWidth else m.headWidth / 2

/-- See `Manifest.rowBytes`. -/
def Manifest.folioRows (m : Manifest) : Nat := 65536 / m.rowBytes

/-- The proposed scale and zero point of a folio (R301): those of the nearest earlier folio of its layer, head and kind that has been
fixed, else those of the manifest. -/
def Seq.proposed (q : Seq) (m : Manifest) (layer head kind : Nat) : Nat → BitVec 32 × Nat
  | 0 => (m.kvScale, m.kvZp)
  | f + 1 =>
    match Tab.opt q.cat (folioKey layer head kind f) with
    | some e => if e.fixed then (e.scale, e.zp) else q.proposed m layer head kind f
    | none => q.proposed m layer head kind f

/-- The folio ranges that an LWALK passes, as descriptors with the folio numbers; none if the walk is invalid (R303). -/
def State.walkDescs (s : State) (x : Nat) (h : Word) (b : Bytes) : Option (List (Nat × Desc)) :=
  let sid := leAt b 0 4
  let layer := leAt b 8 2
  let head := leAt b 0x0A 2
  let kind := leAt b 0x0C 1 % 2
  let first := leAt b 0x10 6
  let count := leAt b 0x18 3
  match (s.ctx x).kernel h, Tab.opt (s.ctx x).seqs sid with
  | some r, some q =>
    match r.entries.find? fun e => e.sid == sid && e.failed.isNone, (s.genBody x q.gen).bind fun g => g.manifest with
    | some e, some m =>
      let t := m.folioRows
      if !r.isStep || m.layers ≤ layer || m.kvHeads ≤ head || q.len + e.append < first + count ||
          (leAt b 0x1C 1 != 0 && leAt b 0x1D 1 != 0) then none
      else if count = 0 then some []
      else
        (List.range ((first + count - 1) / t - first / t + 1)).mapM fun i =>
          let f := first / t + i
          let lo := max first (f * t)
          let hi := min (first + count) ((f + 1) * t)
          (Tab.opt q.cat (folioKey layer head kind f)).map fun e =>
            let z := if e.fixed then (e.scale, e.zp) else q.proposed m layer head kind f
            (f, { base := e.base + (lo - f * t) * m.rowBytes, rows := hi - lo, cols := m.headWidth, stride := m.rowBytes, scale := z.1
                  zp := z.2, sr := true, fmt := m.kvFmt, tag := 0 })
    | _, _ => none
  | _, _ => none

/-- The 32 bytes of a descriptor (R59, R60). -/
def Desc.bytes (d : Desc) : Bytes :=
  toLe 8 d.base ++ toLe 4 d.rows ++ toLe 4 d.cols ++ toLe 4 d.stride ++ toLe 4 d.scale.toNat ++
    toLe 4 (d.zp * 65536 + (if d.sr then 256 else 0) + d.fmt) ++ toLe 4 d.tag

/-- The fault of a leat instruction at issue, and whether it is precise: GEN_MISMATCH and STREAM_INVALID are not (R130, R215, R231, R284,
R303). -/
def State.leatIssueFault (s : State) (c kind : Nat) (b : Bytes) : Option (Nat × Bool) :=
  let o : LeatOp := { kind, block := b, codeOff := 0 }
  let x := ((s.ownerOf c).map fun o => o.1).getD 0
  if !leatLayout kind b then some (0x010D, true)
  else if kind != 0 && !o.toHopper && o.spDst % 512 != 0 then some (0x0103, true)
  else if !o.sluices.1.inRange (s.shelvesOf c) || !o.sluices.2.inRange (s.shelvesOf c) then some (0x0102, true)
  else if kind = 1 then
    if !s.genReady x (leAt b 0 2) then some (0x010C, false)
    else match s.streamTensor x b with
      | none => some (0x010D, false)
      | some (g, _, t, _) =>
        if streamBlocks g t < leAt b 0x10 6 + leAt b 0x18 3 || (o.toHopper && (o.sluices.2.mode != 0 || o.spDst != 0)) then
          some (0x010D, false)
        else none
  else if kind = 2 then
    (match s.walkDescs x (s.core c).handle b with
     | none => some (0x010D, false)
     | some l => if s.inShelves c (leAt b 0x28 3) (32 * l.length) then none else some (0x0102, true))
  else none

/-- Change the body of a generation of a context, or of the collection it maps. -/
def State.modGenBody (s : State) (x g : Nat) (f : GenBody → GenBody) : State :=
  match Tab.opt (s.ctx x).gens g with
  | none => s
  | some n => match n.ref with
    | none => s.modCtx x fun cx => { cx with gens := Tab.change cx.gens g fun n => { n with body := f n.body } }
    | some id => { s with colls := Tab.change s.colls id fun k => { k with body := f k.body } }

/-- TIER_PREFETCH_START (R290): copying of layer n + 1, if the tier holds it, starts into the half of the buffer that does not hold layer n. -/
def GenBody.startPrefetch (g : GenBody) (layer : Nat) : GenBody :=
  if layer + 1 ∈ g.tierLayers then
    { g with prefetch := (g.prefetch.filter fun p => p.1 % 2 != (layer + 1) % 2) ++ [(layer + 1, false)] }
  else g

/-- The first stream of a layer by a kernel starts the copy of the next (R290). -/
def State.streamLayer (s : State) (x c g layer : Nat) : State :=
  let h := (s.core c).handle
  if ((s.ctx x).kernel h).any fun r => (g, layer) ∈ r.streamed then s
  else (s.modKernel x h fun r => { r with streamed := r.streamed ++ [(g, layer)] }).modGenBody x g fun b => b.startPrefetch layer

/-- The body of a leat instruction: checks at issue, then the leat's queue of eight (R206). -/
def bodyLeat (op kind c : Nat) (w : Word) (s : State) : State :=
  s.withBlock c 2 w 64 fun s b =>
    match s.leatIssueFault c kind b with
    | some f => s.fault c 2 0 f.1 (faultStatus f.1) f.2 (some (s.pc c)) 0 []
    | none =>
      if 8 ≤ (s.core c).leat.length then s.stallAt c op w
      else
        let o : LeatOp := { kind, block := b, codeOff := s.pc c }
        let s := (s.modCore c fun k => { k with leat := k.leat ++ [o] }).advance c
        match kind, s.ownerOf c with
        | 1, some (x, _) =>
          (match s.streamTensor x b with
           | some (_, _, t, _) => s.streamLayer x c (leAt b 0 2) t.layer
           | none => s)
        | _, _ => s

/-- LMOVE (R219, R220). -/
def execLmove (c : Nat) (w : Word) (s : State) : Host.Outcome State Fault Refusal :=
  control 0x90 (resU ||| 7 * 2 ^ 53) [fUra w] (bodyLeat 0x90 0 c w) c w s

/-- LSTREAM (R219, R284). -/
def execLstream (c : Nat) (w : Word) (s : State) : Host.Outcome State Fault Refusal :=
  control 0x91 (resU ||| 7 * 2 ^ 53) [fUra w] (bodyLeat 0x91 1 c w) c w s

/-- LWALK (R219, R303). -/
def execLwalk (c : Nat) (w : Word) (s : State) : Host.Outcome State Fault Refusal :=
  control 0x92 (resU ||| 7 * 2 ^ 53) [fUra w] (bodyLeat 0x92 2 c w) c w s

/-! ## Units of an operation -/

/-- A unit of work. -/
inductive LeatUnit where
  /-- blocks of a tensor, assembled into one hopper block, and the scratchpad row it goes to if no hopper is named -/
  | blocks (first n row : Nat)
  /-- row r of a moved tensor -/
  | row (r : Nat)
  /-- hopper block t of group g of the folio range of descriptor d -/
  | walkHop (d g t : Nat)
  /-- bytes 512 k on of the folio range of descriptor d, to a scratchpad row -/
  | walkRow (d k row : Nat)
  deriving DecidableEq, Repr

/-- 4-step blocks in one hopper block of a format (R285). -/
def blocksPerHop (fmt : Nat) : Nat := blockSteps fmt / 4

/-- The scratchpad rows that each folio range takes, one after another (R303). -/
def walkRows (base : Nat) : List Desc → List Nat
  | [] => []
  | d :: r => base :: walkRows (base + ceilDiv (d.rows * d.stride) 512) r

/-- The units of a started operation, in the order of delivery. -/
def LeatOp.units (o : LeatOp) (fmt : Nat) : List LeatUnit :=
  let b := o.block
  if o.kind = 1 then
    let n := leAt b 0x18 3
    let g := blocksPerHop fmt
    (List.range (ceilDiv n g)).map fun i => .blocks (leAt b 0x10 6 + i * g) (min g (n - i * g)) (o.spDst / 512 + i)
  else if o.kind = 0 then (List.range ((o.descs.head?.map fun d => d.rows).getD 0)).map .row
  else if o.toHopper then
    o.descs.zipIdx.flatMap fun e =>
      let bs := blockSteps e.1.fmt
      let keys := leAt b 0x0C 1 % 2 = 0
      let groups := if keys then ceilDiv e.1.rows 64 else e.1.cols / 64
      let per := if keys then ceilDiv e.1.cols bs else ceilDiv e.1.rows bs
      (List.range groups).flatMap fun g => (List.range per).map fun t => .walkHop e.2 g t
  else
    (o.descs.zip (walkRows (o.spDst / 512) o.descs)).zipIdx.flatMap fun e =>
      (List.range (ceilDiv (e.1.1.rows * e.1.1.stride) 512)).map fun k => .walkRow e.2 k (e.1.2 + k)

/-- Slots of a byte range in the aperture: slot n covers rows 8n to 8n + 7 (R138). -/
def slotsOfRange (va n : Nat) : List Nat :=
  if inAperture va && n != 0 then
    (List.range ((scratchOf va % 4096 + n + 4095) / 4096)).map fun i => scratchOf va / 4096 + i
  else []

/-- The slots that a unit passes: of its source, of its destination. -/
def LeatOp.unitSlots (o : LeatOp) (u : LeatUnit) : List Nat × List Nat :=
  match u with
  | .blocks _ _ row => ([], if o.toHopper then [] else [row / 8])
  | .walkHop _ _ _ => ([], [])
  | .walkRow _ _ row => ([], [row / 8])
  | .row r =>
    match o.descs with
    | [a] => (slotsOfRange (a.rowVa r) (rowLen a.fmt a.cols), [])
    | a :: b :: _ => (slotsOfRange (a.rowVa r) (rowLen a.fmt a.cols), slotsOfRange (b.rowVa r) (rowLen b.fmt b.cols))
    | [] => ([], [])

/-- The named slots that unit i is the first to pass; the first unit also takes those that none passes (R144). -/
def firstSlots (named : List Nat) (touched : List (List Nat)) (i : Nat) : List Nat :=
  named.filter fun n => ((touched.getD i []).contains n && !((touched.take i).any fun t => t.contains n)) ||
    (i = 0 && !(touched.any fun t => t.contains n))

/-- The named slots that unit i is the last to pass; the last unit also takes those that none passes. -/
def lastSlots (named : List Nat) (touched : List (List Nat)) (i : Nat) : List Nat :=
  named.filter fun n => ((touched.getD i []).contains n && !((touched.drop (i + 1)).any fun t => t.contains n)) ||
    (i + 1 = touched.length && !(touched.any fun t => t.contains n))

/-- The check of some slots under a mode. -/
def State.slotCheck (s : State) (c mode : Nat) (slots : List Nat) (write : Bool) : Checked :=
  if mode = 0 then .pass
  else match slots.find? fun n => ((s.lcoreOf c).slot n).full == write with
    | none => .pass
    | some n => if mode = 3 then .notReady n else .stall n

/-- The format of a streamed tensor. -/
def State.leatFmt (s : State) (c : Nat) (o : LeatOp) : Nat :=
  ((s.ownerOf c).bind fun w => (s.streamTensor w.1 o.block).map fun t => t.2.2.1.fmt).getD 1

/-- The check of the next unit's slots (R143, R144). -/
def State.leatCheck (s : State) (c : Nat) (o : LeatOp) : Checked :=
  let us := o.units (s.leatFmt c o)
  let t := us.map o.unitSlots
  let sl := o.sluices
  match s.slotCheck c sl.1.mode (firstSlots sl.1.slots (t.map fun p => p.1) o.done) false with
  | .pass => s.slotCheck c sl.2.mode (firstSlots sl.2.slots (t.map fun p => p.2) o.done) true
  | r => r

/-- The updates after a unit (R144). -/
def State.leatUpdate (s : State) (c : Nat) (o : LeatOp) : State :=
  let t := (o.units (s.leatFmt c o)).map o.unitSlots
  let sl := o.sluices
  let s := if 2 ≤ sl.1.mode then s.modLcoreOf c fun l => l.update false (lastSlots sl.1.slots (t.map fun p => p.1) o.done) else s
  if 2 ≤ sl.2.mode then s.modLcoreOf c fun l => l.update true (lastSlots sl.2.slots (t.map fun p => p.2) o.done) else s

/-! ## Delivery -/

/-- Hopper capacity: two buffers of 16 blocks (R79). -/
def hopperBlocks : Nat := 32

/-- Is there room in every hopper that an operation names? -/
def State.hopperRoom (s : State) (c : Nat) (o : LeatOp) (n : Nat) : Bool :=
  (List.range 8).all fun a =>
    let y := s.array c a
    (!o.masks.1.testBit a || y.heldA + n ≤ hopperBlocks) && (!o.masks.2.testBit a || y.heldB + n ≤ hopperBlocks)

/-- Deliver blocks to every named hopper, a copy each (R79). -/
def State.deliver (s : State) (c : Nat) (o : LeatOp) (l : List HopBlock) : State :=
  (List.range 8).foldl (fun s a =>
    let s := if o.masks.1.testBit a then s.modArray c a fun y => { y with streamA := y.streamA ++ l } else s
    if o.masks.2.testBit a then s.modArray c a fun y => { y with streamB := y.streamB ++ l } else s) s

/-- A hopper block from the codes of its steps and rows (R217). -/
def hopOf (fmt : Nat) (code : Nat → Nat → Nat) : Bytes :=
  let eb := elemBits fmt
  (List.range 64).flatMap fun r => toLe 8 (((List.range (blockSteps fmt)).map fun y => code y r * 2 ^ (eb * y)).sum)

/-- An imprecise fault of a leat operation. -/
def State.leatFault (s : State) (c code : Nat) (o : LeatOp) (addr : Nat) : State :=
  s.fault c 2 0 code (faultStatus code) false (some o.codeOff) addr []

/-- What expanding one block gives. -/
inductive Expanded where
  | ok (codes : List Nat) (poison : Bool) (tab : Option Nat)
  | mismatch
  | wait
  deriving DecidableEq, Repr

/-- A LOAD_TABLE that is changing a slot of a context (R275). -/
def State.tableChange (s : State) (x slot : Nat) : Option CodeTable :=
  s.cmds.findSome? fun m => if m.target = x && m.st = .released then
    match m.work with
    | .table n t => if n = slot then some t else none
    | _ => none
    else none

/-- The stored ranges of a layer, one after another. -/
def GenBody.layerRanges (g : GenBody) (layer : Nat) : List (Nat × Nat) :=
  match g.manifest with
  | none => []
  | some m => (m.tensors.zipIdx.filter fun t => t.1.layer = layer).flatMap fun t => storedRegions m g.atUse g.width t.2

/-- The bytes of a half of the prefetch buffer: the largest layer of the slower tier (R289). -/
def GenBody.halfBytes (g : GenBody) : Nat := (g.tierLayers.map fun l => ((g.layerRanges l).map fun r => r.2).sum).foldl max 0

/-- Where the byte at a stored offset of a layer stands in the prefetch buffer. -/
def GenBody.bufferAt (g : GenBody) (layer off : Nat) : Nat :=
  ((g.layerRanges layer).foldl (fun (a : Nat × Option Nat) r =>
    match a.2 with
    | some _ => a
    | none => if r.1 ≤ off && off < r.1 + r.2 then (a.1, some (a.1 + off - r.1)) else (a.1 + r.2, none))
    (layer % 2 * g.halfBytes, none)).2.getD 0

/-- The prefetch buffer as an image of its own. -/
def GenBody.bufferBody (g : GenBody) : GenBody := { g with pages := g.buffer.zipIdx.map fun e => (e.2, e.1) }

/-- Is the prefetch copy of a layer complete (R290)? -/
def GenBody.prefetched (g : GenBody) (layer : Nat) : Bool := g.prefetch.any fun p => p.1 == layer && p.2

/-- Read stored bytes of a layer for a leat: from the prefetch buffer once its copy is complete, else where they are stored (R290); first the
table walks of its pages (R250). -/
def State.streamRead (s : State) (c x : Nat) (q : Req) (g : GenBody) (layer off n : Nat) : State × Bytes × Bool :=
  let at_ := if layer ∈ g.tierLayers && g.prefetched layer then (g.bufferBody, g.bufferAt layer off) else (g, off)
  let w := (pagePieces off n).foldl (fun (a : State × Bool) p =>
    match (Tab.opt g.pages (p.1 / Config.page)).bind (a.1.ctx x).vaOfPage with
    | some va => if a.2 then a.1.walkFor c x 2 va 1 else a
    | none => a) (s, true)
  if w.2 then w.1.imageRead (some x) (some (s.core c).handle) q at_.1 at_.2 n else (w.1, List.replicate n 0xFF, true)

/-- Is anything that locates block j of a tensor poisoned: its run-index entry, or a header since (R284)? -/
def State.blockLost (s : State) (g : GenBody) (t : Tensor) (j : Nat) : Bool :=
  s.imagePoisoned g (t.hdrOff + 4 * (j / 64 * 64)) (4 * (j % 64 + 1)) || s.imagePoisoned g (t.runOff + 8 * (j / 64)) 8

/-- Read and expand block j of a tensor (R269 to R275, R282 to R284), with its counts (R306): a payload is counted once it is read, a
block once it is expanded. -/
def State.expandBlock (s : State) (c x : Nat) (q : Req) (g : GenBody) (m : Manifest) (t : Tensor) (i j : Nat) : State × Expanded :=
  let direct := t.layer ∈ g.tierLayers && !g.prefetched t.layer
  let tier := fun (s : State) => if direct then s.bumpCore c 24 1 else s
  let ones := List.replicate 256 (2 ^ elemBits t.fmt - 1)
  if !g.atUse then
    let n := rawBytes t.fmt
    let r := s.streamRead c x q g t.layer (storedBase m g.width i + j * n) n
    (tier ((r.1.bumpCore c 20 1).bumpCore c 21 n), .ok (expandRaw t.fmt r.2.1) r.2.2 none)
  else
    let rh := s.streamRead c x q g t.layer (t.hdrOff + 4 * j) 4
    let hdrAt := fun k => leAt (s.imagePeek g (t.hdrOff + 4 * k) 4) 0 4
    let runAt := fun k => leAt (s.imagePeek g (t.runOff + 8 * k) 8) 0 8
    let hd := blockHdrOf (leAt rh.2.1 0 4)
    if rh.2.2 || rh.1.blockLost g t j then (tier rh.1, .ok ones true none)
    else
      let off := t.payOff + payloadAt hdrAt runAt j
      let read := rh.1.streamRead c x q g t.layer off (16 * hd.len)
      let took := fun (_ : Unit) => tier (read.1.bumpCore c 21 (16 * hd.len))
      if !hd.coded then ((took ()).bumpCore c 20 1, .ok (expandRaw t.fmt read.2.1) read.2.2 none)
      else match s.tableChange x hd.slot with
        | some new => if new.tgen = hd.tgen then (s, .wait) else (rh.1, .mismatch)
        | none =>
          match Tab.opt (s.ctx x).slots hd.slot with
          | none => (rh.1, .mismatch)
          | some tab =>
            if tab.fmt != t.fmt || tab.tgen != hd.tgen then (rh.1, .mismatch)
            else if read.2.2 then ((took ()).bumpCore c 19 1, .ok ones true (some hd.slot))
            else match expandCoded t.fmt tab.lens read.2.1 with
              | none => (took (), .mismatch)
              | some e => ((took ()).bumpCore c 19 1, .ok e.1 false (some hd.slot))

/-- Expand n blocks from the first, until one cannot be. -/
def expandBlocks (c x : Nat) (q : Req) (g : GenBody) (m : Manifest) (t : Tensor) (i : Nat) :
    Nat → Nat → State → State × Expanded × List (List Nat × Bool × Option Nat)
  | 0, _, s => (s, .ok [] false none, [])
  | n + 1, j, s =>
    let r := s.expandBlock c x q g m t i j
    match r.2 with
    | .ok codes p tab =>
      let v := expandBlocks c x q g m t i n (j + 1) r.1
      (v.1, v.2.1, (codes, p, tab) :: v.2.2)
    | e => (r.1, e, [])

/-- The bytes of row k of a folio range. -/
def State.walkRowBytes (s : State) (g : Agent) (d : Desc) (k : Nat) : State × Fetched :=
  if k < d.rows then s.load g (d.rowVa k) d.stride else (s, .ok (List.replicate d.stride 0) false)

/-- Rows k to k + n − 1 of a folio range; rows beyond it are zero (R303). -/
def State.walkRowsBytes (s : State) (g : Agent) (d : Desc) (k n : Nat) : State × (Nat × Nat ⊕ List Bytes × Bool) :=
  (List.range n).foldl (fun a i =>
    match a.2 with
    | .inl f => (a.1, .inl f)
    | .inr l =>
      let r := a.1.walkRowBytes g d (k + i)
      match r.2 with
      | .bad code addr => (r.1, .inl (code, addr))
      | .ok b p => (r.1, .inr (l.1 ++ [b], l.2 || p))) (s, .inr ([], false))

/-- Bytes cut into hopper blocks of 512, the last filled up with zeros. -/
def hopChunks (b : Bytes) (poison : Bool) : List HopBlock :=
  (List.range (ceilDiv b.length 512)).map fun i => { data := sliceAt b (512 * i) 512, poison }

/-- What delivering one unit gives: done, not possible now, or a fault. -/
inductive Delivered where
  | done | wait
  | bad (code addr : Nat)
  deriving DecidableEq, Repr

/-- The hopper blocks that a unit gives, or why it gives none. -/
inductive Made where
  | blocks (l : List HopBlock)
  | wait
  | bad (code addr : Nat)
  deriving DecidableEq, Repr

/-- The leat as an agent, for an operation: an operation of 4 KiB or more uses the wide queue (R251; log entry 131). -/
def State.leatAgent (s : State) (c : Nat) (o : LeatOp) : Agent :=
  let n := if o.kind = 1 then leAt o.block 0x18 3 * rawBytes (s.leatFmt c o)
    else (o.descs.head?.map fun d => if o.kind = 0 then d.rows * rowLen d.fmt d.cols else (o.descs.map fun d => d.rows * d.stride).sum).getD 0
  { s.agent c 2 with wide := decide (4096 ≤ n) }

/-- Read what a unit delivers as hopper blocks: the first time, or again for a pass that repeats (R285, R287, R303). -/
def State.unitBlocks (s : State) (c x : Nat) (o : LeatOp) (u : LeatUnit) : State × Made :=
  let g := s.leatAgent c o
  match u with
  | .blocks first n _ =>
    match s.streamTensor x o.block with
    | none => (s, .bad 0x010C 0)
    | some (body, m, t, i) =>
      let r := expandBlocks c x g.req body m t i n first s
      match r.2.1 with
      | .wait => (s, .wait)
      | .mismatch => (r.1, .bad 0x010C 0)
      | .ok _ _ _ =>
        let l := r.2.2
        let code := fun y col => ((l.getD (y / 4) ([], false, none)).1).getD (64 * (y % 4) + col) 0
        (r.1, .blocks [{ data := hopOf t.fmt code, poison := o.lost || l.any fun e => e.2.1, tabs := (l.filterMap fun e => e.2.2).eraseDups }])
  | .row k =>
    match o.descs with
    | [] => (s, .blocks [])
    | a :: _ =>
      let r := s.load g (a.rowVa k) (rowLen a.fmt a.cols)
      match r.2 with
      | .bad code addr => (r.1, .bad code addr)
      | .ok b p => (r.1, .blocks (hopChunks b p))
  | .walkHop di gr t =>
    let d := o.descs.getD di (descOf [])
    let bs := blockSteps d.fmt
    let keys := leAt o.block 0x0C 1 % 2 = 0
    let r := if keys then s.walkRowsBytes g d (64 * gr) 64 else s.walkRowsBytes g d (bs * t) bs
    match r.2 with
    | .inl f => (r.1, .bad f.1 f.2)
    | .inr l =>
      let code := fun y q => if keys then rowCode d.fmt (l.1.getD q []) (bs * t + y) else rowCode d.fmt (l.1.getD y []) (64 * gr + q)
      (r.1, .blocks [{ data := hopOf d.fmt code, poison := l.2 }])
  | .walkRow _ _ _ => (s, .blocks [])

/-- Deliver one unit whose checks have passed. -/
def State.leatUnit (s : State) (c x : Nat) (o : LeatOp) (u : LeatUnit) : State × Delivered :=
  let g := s.leatAgent c o
  if o.toHopper then
    let r := s.unitBlocks c x o u
    match r.2 with
    | .wait => (s, .wait)
    | .bad code addr => (r.1, .bad code addr)
    | .blocks l => (r.1.deliver c o (l.zipIdx.map fun e => { e.1 with src := [{ op := o, unit := o.done, chunk := e.2 }] }), .done)
  else match u with
  | .blocks _ _ row =>
    let r := s.unitBlocks c x o u
    match r.2 with
    | .wait => (s, .wait)
    | .bad code addr => (r.1, .bad code addr)
    | .blocks l =>
      let b := joinBlocks l
      if r.1.inShelves c (512 * row) 512 then (r.1.writeRow c (512 * row) b.data b.poison, .done) else (r.1, .bad 0x0102 (512 * row))
  | .row k =>
    match o.descs with
    | a :: d :: _ =>
      let r := s.load g (a.rowVa k) (rowLen a.fmt a.cols)
      match r.2 with
      | .bad code addr => (r.1, .bad code addr)
      | .ok b p =>
        let t := (r.1.walkAhead g (d.rowVa k) (rowLen d.fmt d.cols)).1
        match t.storeFault g (d.rowVa k) (rowLen d.fmt d.cols) with
        | some f => (t, .bad f.1 f.2)
        | none =>
          if p then (t.store g (d.rowVa k) b true, .done)
          else (t.storeRow g d k ((rowCodes a.fmt a.cols b).map some), .done)
    | _ => (s, .done)
  | .walkHop _ _ _ => (s, .done)
  | .walkRow di k row =>
    let d := o.descs.getD di (descOf [])
    let n := min 512 (d.rows * d.stride - 512 * k)
    let r := s.load g (d.base + 512 * k) n
    match r.2 with
    | .bad code addr => (r.1, .bad code addr)
    | .ok b p =>
      if r.1.inShelves c (512 * row) 512 then (r.1.writeRow c (512 * row) b p, .done) else (r.1, .bad 0x0102 (512 * row))

/-- Key and value rows that a unit completes (R306): a group of keys with its last block, a value with its first group, and to scratchpad
each row with its last byte. -/
def LeatOp.rowsOf (o : LeatOp) (u : LeatUnit) : Nat :=
  match u with
  | .walkHop di gr t =>
    let d := o.descs.getD di (descOf [])
    let bs := blockSteps d.fmt
    if leAt o.block 0x0C 1 % 2 = 0 then (if t + 1 = ceilDiv d.cols bs then min 64 (d.rows - 64 * gr) else 0)
    else if gr = 0 then min bs (d.rows - bs * t) else 0
  | .walkRow di k _ =>
    let d := o.descs.getD di (descOf [])
    min (512 * (k + 1)) (d.rows * d.stride) / max 1 d.stride - 512 * k / max 1 d.stride
  | _ => 0

/-- The reads with which a stream locates its first block: its run-index entry and the headers since (R284). -/
def State.locateFirst (s : State) (c x : Nat) (o : LeatOp) : State × Bool :=
  match s.streamTensor x o.block with
  | some (g, _, t, _) =>
    if !g.atUse then (s, false)
    else
      let j := leAt o.block 0x10 6
      let q := (s.leatAgent c o).req
      let r := s.streamRead c x q g t.layer (t.runOff + 8 * (j / 64)) 8
      let u := r.1.streamRead c x q g t.layer (t.hdrOff + 4 * (j / 64 * 64)) (4 * (j % 64))
      (u.1, r.2.2 || u.2.2)
  | none => (s, false)

/-- The reads of the catalogue entries that a walk passes (R251, R303). -/
def State.readCatalogue (s : State) (c x sid : Nat) (keys : List Nat) : State :=
  match Tab.opt (s.ctx x).seqs sid with
  | none => s
  | some q => keys.foldl (fun s k => match (Tab.opt q.cat k).bind (s.ctx x).entryDpa with
    | some d => (s.pread (some x) (some (s.core c).handle) { unit := 2, core := some c } 0 d 32).1
    | none => s) s

/-- Start an operation: LMOVE reads its descriptors (R220), and a hopper takes only an operand format (R217; log entry 127); LSTREAM locates its
first block (R284); LWALK reads the catalogue, writes its descriptor list and is noted for the folios whose first position it covers (R303,
R304). -/
def State.leatStart (s : State) (c x : Nat) (o : LeatOp) : State × (Nat × Nat ⊕ LeatOp) :=
  let s := s.modCore c fun k => { k with chunks := [] }
  if o.kind = 0 then
    let g := s.agent c 2
    let ra := s.readDesc g (leAt o.block 0 6)
    match ra.2 with
    | .bad code addr => (ra.1, .inl (code, addr))
    | .ok a =>
      if o.toHopper then
        (ra.1, if operandFormat a.fmt then .inr { o with started := true, descs := [a] } else .inl (0x0107, leAt o.block 0 6))
      else
        let rb := ra.1.readDesc g (leAt o.block 8 6)
        match rb.2 with
        | .bad code addr => (rb.1, .inl (code, addr))
        | .ok b =>
          if a.fmt != b.fmt || a.rows != b.rows || a.cols != b.cols then (rb.1, .inl (0x0107, leAt o.block 8 6))
          else (rb.1, .inr { o with started := true, descs := [a, b] })
  else if o.kind = 1 then
    let r := s.locateFirst c x o
    (r.1, .inr { o with started := true, lost := r.2 })
  else match s.walkDescs x (s.core c).handle o.block with
    | none => (s, .inl (0x010D, 0))
    | some l =>
      let list := leAt o.block 0x28 3
      let key := fun f => folioKey (leAt o.block 8 2) (leAt o.block 0x0A 2) (leAt o.block 0x0C 1 % 2) f
      let s := s.readCatalogue c x (leAt o.block 0 4) (l.map fun e => key e.1)
      let s := l.zipIdx.foldl (fun s e => s.writeScratch c (list + 32 * e.2) e.1.2.bytes false) s
      let first := leAt o.block 0x10 6
      let m := ((Tab.opt (s.ctx x).seqs (leAt o.block 0 4)).bind fun q => s.genBody x q.gen).bind fun g => g.manifest
      let rows := (m.map fun m => m.folioRows).getD 1
      let cov := (l.zipIdx.filter fun e => first ≤ e.1.1 * rows).map fun e =>
        (leAt o.block 0 4, leAt o.block 8 2, leAt o.block 0x0A 2, leAt o.block 0x0C 1 % 2, e.1.1, list + 32 * e.2)
      (s.modCore c fun k => { k with walks := k.walks ++ cov }, .inr { o with started := true, descs := l.map fun e => e.2 })

/-- Put an operation in the place of the i-th of the queue, or take it out. -/
def State.setLeat (s : State) (c i : Nat) (o : Option LeatOp) : State :=
  s.modCore c fun k => { k with leat := match o with
    | some o => modAt (fun _ => o) i k.leat
    | none => k.leat.eraseIdx i }

/-- Go on with the i-th operation of the queue: start it, then deliver its next unit if its checks pass and its hoppers have room. -/
def State.leatGo (s : State) (c x i : Nat) (o : LeatOp) : State :=
  let st := if o.started then (s, .inr o) else s.leatStart c x o
  match st.2 with
  | .inl f => st.1.leatFault c f.1 o f.2
  | .inr o =>
    let s := st.1.setLeat c i (some o)
    match (o.units (s.leatFmt c o))[o.done]? with
    | none => s.setLeat c i none
    | some u =>
      match s.leatCheck c o with
      | .notReady n => s.leatFault c 0x0104 o n
      | .stall _ => s
      | .pass =>
        if !s.hopperRoom c o 1 then s
        else
          let r := s.leatUnit c x o u
          match r.2 with
          | .wait => s
          | .bad code addr => r.1.leatFault c code o addr
          | .done =>
            let s := ((r.1.leatUpdate c o).bumpCore c 25 (o.rowsOf u)).clearStall c (if o.kind = 1 then 20 else 1)
            if (o.units (s.leatFmt c o)).length ≤ o.done + 1 then s.setLeat c i none
            else s.setLeat c i (some { o with done := o.done + 1 })

/-- May the i-th operation of the queue go on: it heads its path (R286), operations start in issue order, and deliveries to one hopper
arrive in issue order (R220)? -/
def leatEligible (q : List LeatOp) (i : Nat) : Bool :=
  match q[i]? with
  | none => false
  | some o =>
    (q.take i).all fun p => (p.kind == 1) != (o.kind == 1) && (o.started || p.started) &&
      (p.masks.1 &&& o.masks.1) == 0 && (p.masks.2 &&& o.masks.2) == 0

/-- Can the i-th operation make progress now? -/
def State.leatMoves (s : State) (c i : Nat) : Bool :=
  leatEligible (s.core c).leat i && match (s.core c).leat[i]? with
    | none => false
    | some o => !o.started || ((match s.leatCheck c o with
        | .stall _ => false
        | _ => true) && s.hopperRoom c o 1)

/-- LEAT_DELIVERY (R285): the first operation that can make progress delivers its next unit; the operand counts the cycles in which the
expander had no payload (R288). -/
def execLeatDelivery (c starved : Nat) (s : State) : Host.Outcome State Fault Refusal :=
  match (List.range 8).find? fun i => s.leatMoves c i, s.ownerOf c with
  | some i, some (x, _) =>
    when (s.coreOn c) s fun s =>
      match (s.core c).leat[i]? with
      | none => s
      | some o => (s.bumpCore c 22 starved).leatGo c x i o
  | _, _ => idle s

/-- Read again the blocks that one side of a pass took, in their order (R287); a unit that gave several blocks is read once. -/
def State.rereadSide (s : State) (c x : Nat) (l : List HopSrc) : State × Made :=
  let r := l.foldl (fun (a : State × Made × Option (LeatOp × Nat × List HopBlock)) e =>
    match a.2.1 with
    | .blocks got =>
      let fresh := match a.2.2 with
        | some (o, u, bs) => if o == e.op && u == e.unit then some bs else none
        | none => none
      (match fresh with
       | some bs => (a.1, .blocks (got ++ (bs.drop e.chunk).take 1), a.2.2)
       | none =>
         match (e.op.units (a.1.leatFmt c e.op))[e.unit]? with
         | none => (a.1, .bad 0x010C 0, none)
         | some u =>
           let r := a.1.unitBlocks c x e.op u
           match r.2 with
           | .blocks bs => (r.1, .blocks (got ++ (bs.drop e.chunk).take 1), some (e.op, e.unit, bs))
           | w => (r.1, w, none))
    | _ => a) (s, .blocks [], none)
  (r.1, r.2.1)

/-- Blocks of 256 elements that a list of stream sources names: a stream's last hopper block holds only those that are left (R285, R306). -/
def State.replayCount (s : State) (c : Nat) (l : List HopSrc) : Nat :=
  ((l.filter fun e => e.op.kind == 1).map fun e => match (e.op.units (s.leatFmt c e.op))[e.unit]? with
    | some (.blocks _ n _) => n
    | _ => 0).sum

/-- Take over what a replay has delivered to one side. -/
def TileSlot.replayed (t : TileSlot) (a b : List HopBlock) (sideA sideB : Bool) : TileSlot :=
  let ja := joinBlocks a
  let jb := joinBlocks b
  { t with replay := false
           hopA := if sideA then ja.data else t.hopA
           hopB := if sideB then jb.data else t.hopB
           poisoned := t.poisoned || (sideA && ja.poison) || (sideB && jb.poison)
           poisonB := if sideB then jb.poison else t.poisonB }

/-- STREAM_REPLAY (R109, R287): the leat reads again, and expands again, the blocks that a repeated pass took, and delivers them to that pass's
hopper only. -/
def execStreamReplay (c a : Nat) (s : State) : Host.Outcome State Fault Refusal :=
  let y := s.array c a
  let b := !y.next
  let t := y.slot b
  match t.pass, s.ownerOf c with
  | some q, some (x, _) =>
    let p := passOf q.block
    let la := if p.srcA = 1 then t.srcsA else []
    let lb := if p.srcB = 1 then t.srcsB else []
    when (s.coreOn c && a < 8 && t.use == .pass && t.replay) s fun s =>
      let n := s.replayCount c (la ++ lb)
      let ra := s.rereadSide c x la
      let rb := ra.1.rereadSide c x lb
      match ra.2, rb.2 with
      | .blocks ha, .blocks hb =>
        (rb.1.modArray c a fun y => y.modSlot b fun t => t.replayed ha hb (p.srcA == 1) (p.srcB == 1)).bumpCore c 23 n
      | .bad code addr, _ | _, .bad code addr => rb.1.passFault c a code q addr
      | _, _ => s
  | _, _ => idle s

/-- TIER_PREFETCH_DONE (R290): the copy of a layer into its half of the prefetch buffer is complete. -/
def execTierPrefetchDone (x gen layer : Nat) (s : State) : Host.Outcome State Fault Refusal :=
  match s.genBody x gen with
  | none => idle s
  | some g =>
    when (s.serving && (layer, false) ∈ g.prefetch) s fun s =>
      let s := (g.layerRanges layer).foldl (fun s r => (List.range (ceilDiv r.2 128)).foldl (fun s i =>
        let d := s.imageRead (some x) none {} g (r.1 + 128 * i) (min 128 (r.2 - 128 * i))
        d.1.imageWrite (some x) none g.bufferBody (g.bufferAt layer r.1 + 128 * i) d.2.1 d.2.2) s) s
      (s.modGenBody x gen fun g => { g with prefetch := modWhere (fun p => p.1 == layer) (fun p => (p.1, true)) g.prefetch }).bumpFw
        x 11 ((g.layerRanges layer).map fun r => r.2).sum

end Sys2Proof.Machine
end

