-- ==== Sys2Proof/Machine/Net.lean ====
section
/-! DEFINITION. What the fabric's rules share: partitions and routes (R375, R376, R399 to R402), messages and their compression
(R396, R398), sending over a port or the hub (R393, R394), reports to the fabric manager (R410), and accesses to the scratchpad and
memory of a window's context (R137, R152, R404). -/

namespace Sys2Proof.Machine

/-! ## Partitions (R375, R376) -/

/-- Quadrants of one partition of a layout. -/
def layoutWidth (layout : Nat) : Nat := if layout = 4 then 1 else if layout = 2 then 2 else 4

/-- The partition of a quadrant. -/
def State.partOfQuad (s : State) (q : Nat) : Nat := q / layoutWidth s.net.layout

/-- The partition of a port: ports P(2q) and P(2q + 1) lie at quadrant q's optical engine (R16, R382). -/
def State.partOfPort (s : State) (p : Nat) : Nat := s.partOfQuad (p / 2)

/-- The partition of a context: that of its function (R376). -/
def State.partOfCtx (s : State) (x : Nat) : Nat := (s.func (s.ctx x).req.func).partition

/-- Does a node identifier name this Volud (R399)? -/
def State.isSelf (s : State) (node : Nat) : Bool := node == 0xFFFF || s.net.node == some node

/-- This Volud's node identifier in messages. -/
def State.selfNode (s : State) : Nat := s.net.node.getD 0xFFFF

/-- The port toward a node on which answers go, if its route is valid and the port has a link; a recovering port keeps its messages (R395,
R397). -/
def State.routePort (s : State) (node : Nat) : Option Nat :=
  let r := Tab.look s.net.routes {} node
  if r.valid && ((s.port r.port).st == .up || (s.port r.port).st == .recovering) then some r.port else none

/-- The port toward a node, if its route is valid and the port is UP (R400, R410). -/
def State.routeUp (s : State) (node : Nat) : Option Nat := (s.routePort node).filter fun p => (s.port p).st == .up

/-- The port toward a node for a context: it is UP and lies in the context's partition (R400). -/
def State.routeFor (s : State) (x : Option Nat) (node : Nat) : Option Nat :=
  match s.routeUp node with
  | none => none
  | some p => match x with
    | none => some p
    | some x => if s.partOfPort p = s.partOfCtx x then some p else none

/-! ## Messages (R396, R398) -/

/-- Virtual channel of a message: 0 REQ, 1 RSP, 2 FM (R390, R393). -/
def msgVc (h : MsgHdr) : Nat := if h.mtype = 4 || h.mtype = 5 then 1 else if h.mtype = 0x20 || h.mtype = 0x21 then 2 else 0

/-- Length of a message on the wire. -/
def msgBytes (m : Msg) : Nat := 48 + m.data.length

/-- Credit units of a message (R393). -/
def msgUnits (m : Msg) : Nat := ((msgBytes m) + 15) / 16

/-- Data bytes that a PUT or GET_DATA message stands for (R396). -/
def partLen (h : MsgHdr) : Nat := min 4096 (h.len - 4096 * h.part)

/-- Messages of an operation (R397). -/
def nparts (len : Nat) : Nat := max 1 (ceilDiv len 4096)

/-- The granules of message data (R398). -/
def granules (d : Bytes) : List Bytes := (List.range ((d.length + 63) / 64)).map fun g => (d.drop (64 * g)).take 64

/-- Compress message data: the map and the granules sent (R398). -/
def compress (d : Bytes) : BitVec 64 × Bytes :=
  let keep := (granules d).zipIdx.filter fun g => !allZero g.1
  (BitVec.ofNat 64 (ofBits (keep.map fun g => g.2)), keep.flatMap fun g => g.1)

/-- A message with data, compressed if it may be. -/
def mkData (h : MsgHdr) (z : Bool) (d : Bytes) : Msg :=
  if z then
    let c := compress d
    { hdr := { h with z := true, zmap := c.1 }, data := c.2 }
  else { hdr := { h with z := false, zmap := 0 }, data := d }

/-- Put the granules sent in their places (R398). -/
def expandGranules (zmap : BitVec 64) (n : Nat) : Nat → Bytes → Bytes
  | 0, _ => []
  | f + 1, d =>
    let g := (n + 63) / 64 - (f + 1)
    let len := min 64 (n - 64 * g)
    if zmap.getLsbD g then d.take len ++ expandGranules zmap n f (d.drop len)
    else List.replicate len 0 ++ expandGranules zmap n f d

/-- The data bytes that a PUT or GET_DATA message stands for. -/
def msgFull (m : Msg) : Bytes :=
  if m.hdr.z then expandGranules m.hdr.zmap (partLen m.hdr) (((partLen m.hdr) + 63) / 64) m.data else m.data

/-- Bytes of the granules that a map sends. -/
def zmapBytes (zmap : BitVec 64) (n : Nat) : Nat :=
  ((List.range ((n + 63) / 64)).map fun g => if zmap.getLsbD g then min 64 (n - 64 * g) else 0).sum

/-- Is an operation code an atomic (R228)? -/
def isAtomic (op : Nat) : Bool := 0x10 ≤ op && op ≤ 0x16

/-- Is a message well formed (R396 to R398, R412)? -/
def msgOk (m : Msg) : Bool :=
  let h := m.hdr
  let request := h.mtype ≤ 3
  let dataOk := if h.z then h.zmap.toNat < 2 ^ (((partLen h) + 63) / 64) && m.data.length == zmapBytes h.zmap (partLen h)
    else h.zmap == 0 && m.data.length == (partLen h)
  [1, 2, 3, 4, 5, 0x20, 0x21].contains h.mtype && h.rmode < 4 && h.hops ≤ 7 && (!request || h.status == 0) && h.status ≤ 12 &&
    h.roff < 2 ^ 48 &&
    (if h.mtype = 1 then h.op == 0 && h.len != 0 && h.len ≤ 2 ^ 20 && h.npart == nparts h.len && h.part < h.npart && dataOk
     else if h.mtype = 2 then h.op == 1 && h.len != 0 && h.len ≤ 2 ^ 20 && h.npart == nparts h.len && h.part == 0 && m.data.isEmpty && !h.z
     else if h.mtype = 3 then isAtomic h.op && h.len == 8 && h.npart == 1 && h.part == 0 && h.roff % 8 == 0 && m.data.length == 16 && !h.z
     else if h.mtype = 4 then h.op == 1 && h.len != 0 && h.len ≤ 2 ^ 20 && h.npart == nparts h.len && h.part < h.npart && dataOk
     else if h.mtype = 5 then (m.data.isEmpty || m.data.length == 8) && !h.z
     else m.data.length == 32 && !h.z)

/-! ## Sending (R393, R394, R399) -/

/-- Flits that a message takes in the payload stream. -/
def msgFlits (m : Msg) : Nat := ((msgBytes m) + 255) / 256

/-- Send one message over a port: its flits take sequence numbers and stay in the retry buffer until they are acknowledged (R394). -/
def State.transmit (s : State) (p : Nat) (m : Msg) : State :=
  let n := (msgFlits m)
  let o := s.port p
  let flits := (List.range n).map fun i => ((o.txSeq + i) % 2 ^ 24, if i + 1 = n then [m] else [])
  let s := s.modPort p fun o => { o with txSeq := (o.txSeq + n) % 2 ^ 24, retry := o.retry ++ flits, txCount := o.txCount + n
                                         credits := modAt (fun c => c - (msgUnits m)) (msgVc m.hdr) o.credits }
  ((s.bumpPort p 0 n).emit (.send p m))

/-- The first waiting message whose channel has credit for all of it and has no earlier message waiting (R393). -/
def Port.sendable (o : Port) : Option (Nat × Msg) :=
  if o.st != .up then none
  else (o.waitQ.zipIdx.find? fun e =>
    (msgUnits e.1) ≤ o.credits.getD (msgVc e.1.hdr) 0 && o.retry.length + (msgFlits e.1) ≤ 2048 &&
      !((o.waitQ.take e.2).any fun m => (msgVc m.hdr) == (msgVc e.1.hdr))).map fun e => (e.2, e.1)

/-- Send what can be sent on a port. -/
def portFlush (p : Nat) : Nat → State → State
  | 0, s => s
  | n + 1, s =>
    match (s.port p).sendable with
    | none => s
    | some (i, m) => portFlush p n ((s.modPort p fun o => { o with waitQ := o.waitQ.eraseIdx i }).transmit p m)

/-- Hand a message to a port. -/
def State.portSend (s : State) (p : Nat) (m : Msg) : State :=
  portFlush p ((s.port p).waitQ.length + 1) (s.modPort p fun o => { o with waitQ := o.waitQ ++ [m] })

/-- Send a message where it came from or toward a node: over the hub to this Volud, or on a port. -/
def State.answer (s : State) (v : Via) (m : Msg) : State :=
  match v with
  | .hub => ({ s with fabric := { s.fabric with hubQ := s.fabric.hubQ ++ [m] } } : State).emit (.hub m)
  | .port _ =>
    match s.routePort m.hdr.dstNode with
    | some p => s.portSend p m
    | none => s

/-- A RESP to a request (R397, R403). -/
def respTo (h : MsgHdr) (status : Nat) (d : Bytes) : Msg :=
  { hdr := { h with mtype := 5, z := false, poison := false, rmode := 0, hops := 0, status, dstNode := h.srcNode, srcNode := h.dstNode
                    dstCtx := h.srcCtx, srcCtx := h.dstCtx, zmap := 0, part := 0, npart := 1 }, data := d }

/-- May an arriving message be taken now: over the hub it has been sent, over a port it has been received; in both cases no earlier one
of its channel from there waits? -/
def State.arriving (s : State) (v : Via) (m : Msg) : Bool :=
  match v with
  | .hub => (s.fabric.hubQ.find? fun n => (msgVc n.hdr) == (msgVc m.hdr) && n.hdr.srcCtx == m.hdr.srcCtx && n.hdr.dstCtx == m.hdr.dstCtx) == some m
  | .port p => p < 8 && (s.port p).st == .up && ((s.port p).inbox.find? fun n => (msgVc n.hdr) == (msgVc m.hdr)) == some m

/-- Take an arriving message: its credits return once it is taken, whatever the answer (R393). -/
def State.take (s : State) (v : Via) (m : Msg) : State :=
  match v with
  | .hub => { s with fabric := { s.fabric with hubQ := s.fabric.hubQ.erase m } }
  | .port p => (s.modPort p fun o => { o with inbox := o.inbox.erase m
                                              rxUsed := modAt (fun c => c - (msgUnits m)) (msgVc m.hdr) o.rxUsed }).emit (.linkFlit p (msgVc m.hdr))

/-! ## Reports to the fabric manager (R410) -/

/-- The 32-byte body of a report. -/
def FmReport.body (r : FmReport) : Bytes :=
  toLe 2 r.kind ++ toLe 2 r.node ++ toLe 1 r.ctx ++ toLe 3 0 ++ toLe 8 r.turn.toNat ++ fitTo 16 r.detail

/-- The message of a report. -/
def State.reportMsg (s : State) (r : FmReport) (fm : Nat) : Msg :=
  { hdr := { mtype := 0x20, z := false, poison := false, rmode := 0, hops := 0, status := 0, dstNode := fm, srcNode := s.selfNode
             dstCtx := 0, srcCtx := 0, window := 0, op := 0, len := 0, roff := 0, tag := 0, part := 0, npart := 1, zmap := 0 }
    data := r.body }

/-- Keep a report while no route is UP: at most 64, the oldest dropped and counted at the port toward FM_NODE (R410, R414). -/
def State.holdReport (s : State) (r : FmReport) : State :=
  let l := s.fabric.reports ++ [r]
  let s' : State := { s with fabric := { s.fabric with reports := l.drop (l.length - 64) } }
  if 64 < l.length then s'.bumpPort ((s.net.fmNode.map fun n => (Tab.look s.net.routes {} n).port).getD 0) 15 1 else s'

/-- Send the reports held, now that there may be a route (R410). -/
def State.flushReports (s : State) : State :=
  match s.net.fmNode with
  | none => s
  | some fm =>
    match s.routeUp fm with
    | none => s
    | some p => (s.fabric.reports.foldl (fun s r => s.portSend p (s.reportMsg r fm))
        ({ s with fabric := { s.fabric with reports := [] } } : State))

/-- Report to the fabric manager, and as a Redfish event (R410). -/
def State.fmReport (s : State) (kind node ctx : Nat) (detail : Bytes) : State :=
  let r : FmReport := { kind, node, ctx, turn := s.turn.count, detail }
  ((s.notify s.ev.recno).emit (.fm r)).holdReport r |>.flushReports

/-- The same for a report that goes over every port whose link is up, and is kept while none is (R38, R410). -/
def State.fmReportAll (s : State) (kind node ctx : Nat) (detail : Bytes) : State :=
  let r : FmReport := { kind, node, ctx, turn := s.turn.count, detail }
  let s := (s.notify s.ev.recno).emit (.fm r)
  match s.net.fmNode, (List.range 8).filter fun p => (s.port p).st == .up with
  | some fm, p :: l => (p :: l).foldl (fun s p => s.portSend p (s.reportMsg r fm)) s
  | _, _ => s.holdReport r

/-! ## Access to a logical core's scratchpad and slots from outside it (R137, R151, R152) -/

/-- The physical core that a logical core runs on, if it is placed. -/
def State.servedBy (s : State) (x k : Nat) : Option Nat := (s.ctx x).placed.find? fun c => s.ownerOf c == some (x, k)

/-- Are a logical core's shelves resident (R137)? -/
def State.resident (s : State) (x k : Nat) : Bool := (s.lcore x k).home.isSome

/-- Masked row writes into a logical core's rows (R152). -/
def State.remoteWrite (s : State) (x k addr : Nat) (d : Bytes) (poison : Bool) : State :=
  match s.servedBy x k with
  | some c => s.writeScratch c addr d poison
  | none => s.modLcore x k fun l =>
      let rows := (rowPieces addr d.length)
      let whole := (rows.filter fun p => p.2 = 512).map fun p => p.1 / 512
      { l with
        rows := Tab.fill l.rows 0 addr d
        poison := if poison then rows.foldl (fun q p => addNew (p.1 / 512) q) l.poison else l.poison.filter fun r => r ∉ whole
        bad := wordsLeft l.bad addr d.length
        soft := wordsLeft l.soft addr d.length }

/-- Whole-row reads of a logical core's rows: bytes and poison. -/
def State.remoteRead (s : State) (x k addr n : Nat) : State × Bytes × Bool :=
  match s.servedBy x k with
  | some c => s.readScratch c addr n
  | none =>
    let rows := (rowPieces addr n).map fun p => p.1 / 512
    let s := rows.foldl (fun s r => s.scanShelf x k r none) s
    (s, Tab.span (s.lcore x k).rows 0 addr n, rows.any fun r => r ∈ (s.lcore x k).poison)

/-- The slots that a scratchpad range touches. -/
def slotsTouched (addr n : Nat) : List Nat := if n = 0 then [] else (List.range ((addr % 4096 + n + 4095) / 4096)).map fun i => addr / 4096 + i

/-- The update of the slots of a remote access (R152). -/
def State.remoteUpdate (s : State) (x k rmode addr n : Nat) (write : Bool) : State :=
  if 2 ≤ rmode then s.modLcore x k fun l => l.update write (slotsTouched addr n) else s

/-- Do the slots of a remote access pass R143 (check 6 of R150)? -/
def State.remoteReady (s : State) (x k rmode addr n : Nat) (write : Bool) : Bool :=
  rmode == 0 || (slotsTouched addr n).all fun i => ((s.lcore x k).slot i).full != write

/-- Count into counter n of R153 for a window's context. -/
def State.bumpWindow (s : State) (x k n : Nat) : State := s.bumpShelf x k n 1

end Sys2Proof.Machine
end

