-- ==== Sys2Proof/Machine/Remote.lean ====
section
/-! DEFINITION. Remote operations (R228, R229, R397, R403 to R409): the sending side in the window unit of a core, and the target side
behind a window. -/

namespace Sys2Proof.Machine

/-! ## The remote block (R228) -/

/-- The fields of a remote block. -/
structure RBlk where
  node  : Nat
  ctx   : Nat
  window : Nat
  roff  : Nat
  laddr : Nat
  len   : Nat
  op    : Nat
  rmode : Nat
  lsl   : Sluice
  doneOn : Bool
  done  : Nat
  stat  : Nat
  deriving DecidableEq, Repr

/-- A remote block in its bytes. -/
def rblkOf (b : Bytes) : RBlk :=
  { node := leAt b 6 2, ctx := leAt b 5 1, window := leAt b 4 1, roff := leAt b 8 6, laddr := leAt b 0x10 6
    len := fieldN (leAt b 0x18 4) 0 21, op := leAt b 0x1F 1, rmode := fieldN (leAt b 0x1C 4) 22 2, lsl := sluiceOf (leAt b 0x20 4)
    doneOn := (leAt b 0x24 4).testBit 31, done := fieldN (leAt b 0x24 4) 0 12, stat := leAt b 0x28 3 }

/-- Does a remote block keep its layout (R228)? -/
def rblkLayout (b : Bytes) : Bool :=
  let r := rblkOf b
  leAt b 0 4 == 0 && leAt b 0x0E 2 == 0 && leAt b 0x16 2 == 0 && fieldN (leAt b 0x18 4) 21 11 == 0 && fieldN (leAt b 0x1C 4) 0 22 == 0 &&
    sluiceLayout (leAt b 0x20 4) && fieldN (leAt b 0x24 4) 12 19 == 0 && leAt b 0x2B 1 == 0 && leAt b 0x2C 4 == 0 &&
    r.len != 0 && r.len ≤ 2 ^ 20 && (r.op ≤ 1 || (isAtomic r.op && r.len == 8 && r.roff % 8 == 0))

/-- The fault of REMOTE at issue (R215, R228, R130). -/
def State.remoteIssueFault (s : State) (c : Nat) (b : Bytes) : Option Nat :=
  let r := rblkOf b
  if !rblkLayout b then some 0x0101
  else if r.stat % 16 != 0 then some 0x0103
  else if !s.inShelves c r.stat 16 || !r.lsl.inRange (s.shelvesOf c) || (r.doneOn && 16 * s.shelvesOf c ≤ r.done) then some 0x0102
  else none

/-! ## The engine of a logical core, placed or saved (R365) -/

/-- The engine state of a logical core: on its physical core, or in its save record. -/
def State.eng (s : State) (x k : Nat) : CoreSt :=
  match s.servedBy x k with
  | some c => s.core c
  | none => ((s.lcore x k).saved).getD {}

/-- Change the engine state of a logical core. -/
def State.modEng (s : State) (x k : Nat) (f : CoreSt → CoreSt) : State :=
  match s.servedBy x k with
  | some c => s.modCore c f
  | none => s.modLcore x k fun l => { l with saved := l.saved.map f }

/-- Change the remote operation with a tag. -/
def State.modRemote (s : State) (x k tag : Nat) (f : RemoteOp → RemoteOp) : State :=
  s.modEng x k fun e => { e with remotes := modWhere (fun o => o.tag == tag && o.sent) f e.remotes }

/-- The remote operation with a tag. -/
def State.remoteOp (s : State) (x k tag : Nat) : Option RemoteOp := (s.eng x k).remotes.find? fun o => o.tag == tag && o.sent

/-! ## Local accesses of the window unit -/

/-- Read local bytes of an operation: from the scratchpad of the logical core, or from the context's memory. -/
def State.localRead (s : State) (x k : Nat) (h : Word) (va n : Nat) : State × Fetched :=
  if inAperture va then
    if scratchOf va + n ≤ (s.ctx x).req.shelves * 65536 then
      let r := s.remoteRead x k (scratchOf va) n
      (r.1, .ok r.2.1 r.2.2)
    else (s, .bad 0x0102 (scratchOf va))
  else match s.vread x (some h) {} va n with
    | none => (s, .bad 0x0109 va)
    | some r => (r.1, .ok r.2.1 r.2.2)

/-- The fault of a local write, if any. -/
def State.localFault (s : State) (x va n : Nat) : Option (Nat × Nat) :=
  if inAperture va then (if scratchOf va + n ≤ (s.ctx x).req.shelves * 65536 then none else some (0x0102, scratchOf va))
  else if (s.translateAll x .write false va n).isSome then none else some (0x0109, va)

/-- Write local bytes of an operation. -/
def State.localWrite (s : State) (x k : Nat) (h : Word) (va : Nat) (d : Bytes) (poison : Bool) : State :=
  if inAperture va then s.remoteWrite x k (scratchOf va) d poison else (s.vwrite x (some h) {} va d poison).getD s

/-- Fill or drain the slots of a sluice word of a logical core (R142, R144). -/
def State.lslUpdate (s : State) (x k : Nat) (u : Sluice) (write : Bool) : State :=
  if 2 ≤ u.mode then s.modLcore x k fun l => l.update write u.slots else s

/-- Is data that lies at a context virtual address kept from compression: it is read from a page with key slot ≠ 0, or from the
scratchpad of a protected context (R398)? -/
def State.secretAt (s : State) (x va n : Nat) : Bool :=
  if inAperture va then (s.ctx x).req.modes.testBit 1
  else (pieces va n).any fun p => match s.translate x .read false p.1 with
    | some d => d.2 != 0
    | none => false

/-- May a context's message on a port be compressed (R398)? -/
def State.mayCompress (s : State) (x : Nat) (p : Option Nat) (secret : Bool) : Bool :=
  match p with
  | none => false
  | some p => 0x0101 ≤ (s.port p).version && !(s.ctx x).req.modes.testBit 2 && !secret

/-! ## Sending -/

/-- Send a message of a context toward a node: over the hub (no port), or on a port, with the granules omitted counted (R414). -/
def State.sendOn (s : State) (p : Option Nat) (m : Msg) : State :=
  match p with
  | none => s.answer .hub m
  | some p =>
    let omitted := if m.hdr.z then (partLen m.hdr + 63) / 64 - popCount 64 m.hdr.zmap.toNat else 0
    (s.bumpPort p 13 omitted).portSend p m

/-- The header of a request. -/
def State.reqHdr (s : State) (x : Nat) (r : RBlk) (tag : Nat) : MsgHdr :=
  { mtype := if r.op = 0 then 1 else if r.op = 1 then 2 else 3, z := false, poison := false, rmode := r.rmode, hops := 0, status := 0
    dstNode := r.node, srcNode := s.selfNode, dstCtx := r.ctx, srcCtx := x, window := r.window, op := r.op, len := r.len
    roff := r.roff, tag, part := 0, npart := nparts r.len, zmap := 0 }

/-- Put the messages of a PUT on their way, one for each part: its bytes and its poison (R397, R407). -/
def State.sendParts (s : State) (h : MsgHdr) (p : Option Nat) (z : Bool) (parts : List (Bytes × Bool)) : State :=
  parts.zipIdx.foldl (fun s e => s.sendOn p (mkData { h with part := e.2, poison := e.1.2 } z e.1.1)) s

/-- The parts of an operation: (offset, length) (R397). -/
def partsOf (len : Nat) : List (Nat × Nat) := (List.range (nparts len)).map fun p => (4096 * p, min 4096 (len - 4096 * p))

/-- Read the parts of a PUT's local source; the fault that stops it, if any. -/
def State.readParts (s : State) (x k : Nat) (h : Word) (va : Nat) (l : List (Nat × Nat)) : State × (Nat × Nat ⊕ List (Bytes × Bool)) :=
  l.foldl (fun a p =>
    match a.2 with
    | .inl f => (a.1, .inl f)
    | .inr out =>
      let r := a.1.localRead x k h (va + p.1) p.2
      match r.2 with
      | .bad code addr => (r.1, .inl (code, addr))
      | .ok d q => (r.1, .inr (out ++ [(d, q)]))) (s, .inr [])

/-- Put an operation on its way, first or again: its messages in PART order on one route (R397, R405). The fault that its local source
finds is answered. -/
def State.launchOp (s : State) (x k : Nat) (h : Word) (o : RemoteOp) (p : Option Nat) : State × Option (Nat × Nat) :=
  let r := rblkOf o.block
  let hd := s.reqHdr x r o.tag
  if r.op = 0 then
    let q := s.readParts x k h r.laddr (partsOf r.len)
    match q.2 with
    | .inl f => (q.1, some f)
    | .inr parts => (q.1.sendParts hd p (s.mayCompress x p (s.secretAt x r.laddr r.len)) parts, none)
  else if r.op = 1 then
    match s.localFault x r.laddr r.len with
    | some f => (s, some f)
    | none => (s.sendOn p { hdr := hd, data := [] }, none)
  else (s.sendOn p { hdr := { hd with npart := 1 }, data := sliceAt o.block 0x30 16 }, none)

/-! ## The end of an operation (R229) -/

/-- An operation finishes: the status record first, then the DONE slot; its place is free (R229). -/
def State.finishRemote (s : State) (x k tag status : Nat) (old : Nat) : State :=
  let s : State := { s with fabric := { s.fabric with outOps := s.fabric.outOps.filter fun o => o.tag != tag } }
  match s.remoteOp x k tag with
  | none => s
  | some o =>
    let r := rblkOf o.block
    let s := s.remoteWrite x k r.stat (toLe 8 status ++ toLe 8 (if isAtomic r.op then old else 0)) false
    let s := if r.doneOn then s.modLcore x k fun l => l.update true [r.done] else s
    let s := s.modEng x k fun e => { e with remotes := e.remotes.filter fun o => !(o.tag == tag && o.sent) }
    if status = 0 then s.bumpCtx x 47 r.len else s.bumpCtx x 48 1

/-- A fault of a remote operation: imprecise, at the window unit. -/
def State.remoteFault (s : State) (x k code : Nat) (o : RemoteOp) (addr : Nat) : State :=
  match s.servedBy x k with
  | some c => s.fault c 5 0 code (faultStatus code) false (some o.codeOff) addr []
  | none => s

/-- Start an operation whose local check has passed: PEER_DOWN or UNREACHABLE without being sent, or its messages and its record
(R400, R411). -/
def State.startRemote (s : State) (x k : Nat) (h : Word) (i : Nat) (o : RemoteOp) : State :=
  let r := rblkOf o.block
  let tag := s.fabric.nextTag
  let o := { o with tag, sent := true }
  let s : State := { s with fabric := { s.fabric with nextTag := (tag + 1) % 2 ^ 32 } }
  let s := (s.modEng x k fun e => { e with remotes := modAt (fun _ => o) i e.remotes }).bumpCtx x 46 (if o.retries = 0 then 1 else 0)
  let self := s.isSelf r.node
  let p := if self then none else s.routeFor (some x) r.node
  if !self && r.node ∈ s.fabric.down then s.finishRemote x k tag 0x0A 0
  else if !self && p.isNone then s.finishRemote x k tag 0x08 0
  else
    let q := s.launchOp x k h o p
    match q.2 with
    | some f => q.1.remoteFault x k f.1 o f.2
    | none =>
      let out : OutOp := { tag, ctx := x, lcore := k, node := r.node, op := r.op, len := r.len, port := p }
      let s : State := { q.1 with fabric := { q.1.fabric with outOps := q.1.fabric.outOps ++ [out] } }
      if r.op = 0 then s.lslUpdate x k r.lsl false else s

/-- The check of an operation's local access: a put reads, a get writes, an atomic makes none (R228, R229). -/
def LCore.lslCheck (l : LCore) (r : RBlk) : Checked := if isAtomic r.op then .pass else l.check r.lsl (r.op == 1)

/-- Start the operations of a core in issue order, until the check of one does not pass (R143, R229). -/
def remoteDrain (c x k : Nat) : Nat → State → State
  | 0, s => s
  | n + 1, s =>
    match findAt (fun (o : RemoteOp) => !o.sent) (s.core c).remotes with
    | none => s
    | some (i, o) =>
      match (s.lcore x k).lslCheck (rblkOf o.block) with
      | .pass => remoteDrain c x k n ((s.clearStall c 3).startRemote x k (s.core c).handle i o)
      | .stall _ => s
      | .notReady slot => s.fault c 5 0 0x0104 (faultStatus 0x0104) false (some o.codeOff) slot []

/-- Let the window unit of a core go on. -/
def State.remoteGo (s : State) (c : Nat) : State :=
  match s.ownerOf c with
  | some (x, k) => remoteDrain c x k 17 s
  | none => s

/-- The body of REMOTE: checks at issue, then the queue of sixteen (R206). -/
def bodyRemote (c : Nat) (w : Word) (s : State) : State :=
  s.withBlock c 5 w 64 fun s b =>
    match s.remoteIssueFault c b with
    | some code => s.fault c 5 0 code (faultStatus code) true (some (s.pc c)) 0 []
    | none =>
      if 16 ≤ (s.core c).remotes.length then s.stallAt c 0xF0 w
      else
        let o : RemoteOp := { block := b, codeOff := s.pc c }
        ((s.modCore c fun k => { k with remotes := k.remotes ++ [o] }).advance c).remoteGo c

/-- REMOTE (R228). -/
def execRemote (c : Nat) (w : Word) (s : State) : Host.Outcome State Fault Refusal :=
  control 0xF0 (resU ||| 7 * 2 ^ 53) [fUra w] (bodyRemote c w) c w s

/-! ## Window checks (R150, R376, R404, R409) -/

/-- An open window of a context that takes new operations. -/
def State.window (s : State) (x w : Nat) : Option Window :=
  match (s.ctx x).st with
  | .closed => none
  | .opening => none
  | _ => match Tab.opt (s.ctx x).windows w with
    | some v => if v.closing.isNone then some v else none
    | none => none

/-- Does a list of writers name the sender of a message (R399)? -/
def State.permitted (s : State) (v : Via) (h : MsgHdr) (writers : List (Nat × Nat)) : Bool :=
  writers.any fun w => w.2 == h.srcCtx && match v with
    | .hub => s.isSelf w.1
    | .port _ => w.1 == h.srcNode

/-- Does a message come from the partition of its target context (R376)? -/
def State.samePartition (s : State) (v : Via) (h : MsgHdr) : Bool :=
  match v with
  | .hub => s.partOfCtx h.srcCtx == s.partOfCtx h.dstCtx
  | .port p => s.partOfPort p == s.partOfCtx h.dstCtx

/-- The bit of OPS that permits an operation. -/
def opsBit (op : Nat) : Nat := if op = 0 then 0 else if op = 1 then 1 else 2

/-- The answer of the first check of R150 that fails: (check number, status); none where all pass. Check 5 stands for the translation
of a memory window too (R404). -/
def State.windowCheck (s : State) (v : Via) (h : MsgHdr) : Option (Nat × Nat) :=
  match s.window h.dstCtx h.window with
  | none => some (1, 0x01)
  | some w =>
    let write := h.op != 1
    if !s.permitted v h w.writers || !s.samePartition v h || !w.ops.testBit (opsBit h.op) then some (2, 0x02)
    else if w.bytes < h.roff + h.len then some (3, 0x03)
    else if 2 ≤ h.rmode && !w.ops.testBit 3 then some (4, 0x04)
    else if w.kind = 1 then
      (if (s.translateAll h.dstCtx (if write then .write else .read) false (w.base + h.roff) h.len).isSome then none else some (5, 0x05))
    else if !s.resident h.dstCtx w.core then some (5, 0x0C)
    else if !s.remoteReady h.dstCtx w.core h.rmode (w.base + h.roff) h.len write then some (6, 0x0C)
    else none

/-- A rejection at checks 1 to 4 is counted, and reported once in a turn for its window, source node and check; a port that sees more
than the threshold in a turn stops taking requests of the node (R409). -/
def State.violation (s : State) (v : Via) (h : MsgHdr) (check core : Nat) : State :=
  let known := (s.ctx h.dstCtx).st != .closed
  let s := if known then s.bumpWindow h.dstCtx core 8 else s
  let key := (h.dstCtx, h.window, h.srcNode, check)
  let s := if key ∈ s.fabric.violations then s else
    ({ s with fabric := { s.fabric with violations := s.fabric.violations ++ [key] } } : State).raise
      { code := 0x080A, ctx := if known then some h.dstCtx else none, unit := 5, detail := [h.window, h.srcNode, h.srcCtx, check] }
  match v with
  | .hub => s
  | .port p =>
    let s := s.modPort p fun o => { o with rejects := o.rejects + 1 }
    if s.net.abuse < (s.port p).rejects && h.srcNode ∉ (s.port p).abusers then
      ((s.modPort p fun o => { o with abusers := o.abusers ++ [h.srcNode] }).raise
        { code := 0x0808, unit := 8, index := p, detail := [h.srcNode] }).fmReport 3 h.srcNode 0 [BitVec.ofNat 8 p]
    else s

/-- The core that a window lies on, for its counters. -/
def State.windowCore (s : State) (x w : Nat) : Nat := ((Tab.opt (s.ctx x).windows w).map fun v => v.core).getD 0

/-- Answer a request that a check has turned away. -/
def State.turnAway (s : State) (v : Via) (m : Msg) (check status : Nat) : State :=
  let core := s.windowCore m.hdr.dstCtx m.hdr.window
  let s := if check ≤ 4 then s.violation v m.hdr check core
    else if status = 0x0C then s.bumpWindow m.hdr.dstCtx core 7 else s
  s.answer v (respTo m.hdr status [])

/-! ## Accepted operations -/

/-- Write bytes behind a window (R152, R404, R407): poison poisons rows or codewords. -/
def State.windowWrite (s : State) (x : Nat) (w : Window) (off : Nat) (d : Bytes) (poison : Bool) : State :=
  if w.kind = 1 then
    (if poison then s.vpoison x none {} (w.base + off) d.length else (s.vwrite x none {} (w.base + off) d false).getD s)
  else s.remoteWrite x w.core (w.base + off) d poison

/-- Read bytes behind a window. -/
def State.windowRead (s : State) (x : Nat) (w : Window) (off n : Nat) : State × Bytes × Bool :=
  if w.kind = 1 then (s.vread x none {} (w.base + off) n).getD (s, List.replicate n 0, true)
  else s.remoteRead x w.core (w.base + off) n

/-- The updates after an accepted operation. -/
def State.windowUpdate (s : State) (h : MsgHdr) (w : Window) (write : Bool) : State :=
  if w.kind = 1 then s else s.remoteUpdate h.dstCtx w.core h.rmode (w.base + h.roff) h.len write

/-- CLOSE_WINDOW completes once no accepted operation of the window is left (R404): is one? -/
def State.windowBusy (s : State) (x w : Nat) : Bool := s.fabric.inOps.any fun o => o.ctx == x && o.window == w

/-- The accepted operation that a message belongs to. -/
def State.inOp (s : State) (h : MsgHdr) : Option InOp :=
  s.fabric.inOps.find? fun o => o.srcNode == h.srcNode && o.srcCtx == h.srcCtx && o.tag == h.tag

/-- Drop an accepted operation. -/
def State.dropIn (s : State) (h : MsgHdr) : State :=
  { s with fabric := { s.fabric with inOps := s.fabric.inOps.filter fun o =>
      !(o.srcNode == h.srcNode && o.srcCtx == h.srcCtx && o.tag == h.tag) } }

/-- Write one part of an accepted PUT; after the last one the slots are updated and one RESP is sent (R397, R407). -/
def State.putPart (s : State) (v : Via) (m : Msg) (w : Window) (got : Nat) (poison : Bool) : State :=
  let h := m.hdr
  let s := s.windowWrite h.dstCtx w (h.roff + 4096 * h.part) (msgFull m) h.poison
  let poison := poison || h.poison
  let s := s.dropIn h
  if got + 1 = h.npart then (s.windowUpdate h w true).answer v (respTo h (if poison then 0x06 else 0) [])
  else
    let o : InOp := { srcNode := h.srcNode, srcCtx := h.srcCtx, tag := h.tag, ctx := h.dstCtx, window := h.window, via := v, hdr := h
                      got := got + 1, poison }
    { s with fabric := { s.fabric with inOps := s.fabric.inOps ++ [o] } }

/-- Answer an accepted GET: whole rows, one GET_DATA for each part, then its drains (R152, R397, R407). -/
def State.getAnswer (s : State) (v : Via) (m : Msg) (w : Window) : State :=
  let h := m.hdr
  let port := match v with
    | .hub => none
    | .port _ => s.routePort h.srcNode
  let secret := if w.kind = 1 then s.secretAt h.dstCtx (w.base + h.roff) h.len else (s.ctx h.dstCtx).req.modes.testBit 1
  let z := s.mayCompress h.dstCtx port secret
  let s := (partsOf h.len).zipIdx.foldl (fun s p =>
    let r := s.windowRead h.dstCtx w (h.roff + p.1.1) p.1.2
    let rh : MsgHdr := { h with mtype := 4, rmode := 0, hops := 0, poison := r.2.2, status := 0, dstNode := h.srcNode
                                srcNode := h.dstNode, dstCtx := h.srcCtx, srcCtx := h.dstCtx, part := p.2, npart := nparts h.len }
    let g := mkData rh z r.2.1
    match v with
    | .hub => r.1.answer .hub g
    | .port _ => match port with
      | some q => r.1.sendOn (some q) g
      | none => r.1) s
  s.windowUpdate h w false

/-- The new value of an atomic (R228). -/
def atomicOp (op : Nat) (old a b : Word) : Word :=
  if op = 0x10 then old + a
  else if op = 0x11 then a
  else if op = 0x12 then (if old = b then a else old)
  else if op = 0x13 then old ||| a
  else if op = 0x14 then old &&& a
  else if op = 0x15 then (if old.slt a then a else old)
  else (if a.slt old then a else old)

/-- Perform an accepted ATOMIC (R152, R228, R407). -/
def State.atomicAnswer (s : State) (v : Via) (m : Msg) (w : Window) : State :=
  let h := m.hdr
  let r := s.windowRead h.dstCtx w h.roff 8
  if r.2.2 then (r.1.windowUpdate h w true).answer v (respTo h 0x06 (toLe 8 0))
  else
    let old : Word := BitVec.ofNat 64 (ofLe r.2.1)
    let new := atomicOp h.op old (BitVec.ofNat 64 (leAt m.data 0 8)) (BitVec.ofNat 64 (leAt m.data 8 8))
    let s := r.1.windowWrite h.dstCtx w h.roff (toLe 8 new.toNat) false
    (s.windowUpdate h w true).answer v (respTo h 0 (toLe 8 old.toNat))

/-- Abandon an accepted operation: its whole destination range is poisoned, and no answer is sent (R408). -/
def State.abandon (s : State) (o : InOp) : State :=
  let s := s.dropIn o.hdr
  let s := match Tab.opt (s.ctx o.ctx).windows o.window with
    | some w => s.windowWrite o.ctx w o.hdr.roff (List.replicate o.hdr.len 0xFF) true
    | none => s
  s.raise { code := 0x080B, ctx := some o.ctx, unit := 5, detail := [o.window, o.srcNode, o.srcCtx] }

end Sys2Proof.Machine
end

