-- ==== Sys2Proof/Machine/Rings.lean ====
section
/-! DEFINITION. Rings, completions and interrupts (R326 to R355), the failures and the end of a command (R347 to R352), and what a
command's dependencies say (R336 to R338). -/

namespace Sys2Proof.Machine

/-! ## Interrupts -/

/-- May the Volud serve rings now (R309, R323, R325, R490)? -/
def State.ringService (s : State) : Bool :=
  s.serving && s.host.link == .full && !s.host.viral && s.host.ide != .insecure && s.board.warm.isNone

/-- May completion records and event records be written to host memory now (R323, R324, R325)? -/
def State.hostWrites (s : State) : Bool :=
  s.host.link == .full && !s.host.viral && s.host.ide != .insecure && !s.host.holdCpl

/-- May a vector send: MSI-X is enabled and not masked for its function, and the vector itself is unmasked (R310, R353; log entry 28)? -/
def State.vectorOpen (s : State) (f v : Nat) : Bool :=
  s.host.msixOn.contains f && !s.host.msixMask.contains f && s.host.unmasked.contains (2048 * f + v)

/-- The message of a vector, by its table entry (R311). -/
def State.msixMessage (s : State) (f v : Nat) : Out :=
  let e := Tab.span s.host.msixTable 0 (16 * (2048 * f + v)) 12
  .msix f v (BitVec.ofNat 64 (leAt e 0 8)) (leAt e 8 4)

/-- Send an MSI-X message: it announces every visible record of every ring on the vector; a masked vector sets its pending bit
instead (R353). -/
def State.sendMsix (s : State) (f v : Nat) : State :=
  let key := 2048 * f + v
  if !s.vectorOpen f v then { s with host := { s.host with pendingMsix := addNew key s.host.pendingMsix } }
  else
    let hit : Ring → Ring := fun r => if r.func = f && r.vector = v then { r with unannounced := 0 } else r
    (({ s with rings := s.rings.map fun e => (e.1, hit e.2) } : State)).emit (s.msixMessage f v)

/-- A vector's pending message goes out if it may now be sent (R353). -/
def State.sendIfPending (s : State) (f v : Nat) : State :=
  let key := 2048 * f + v
  if s.host.pendingMsix.contains key && s.vectorOpen f v then
    ({ s with host := { s.host with pendingMsix := s.host.pendingMsix.filter (· != key) } } : State).sendMsix f v
  else s

/-- The same for every vector of a function. -/
def State.sendPending (s : State) (f : Nat) : State :=
  (s.host.pendingMsix.filter fun k => k / 2048 == f).foldl (fun s k => s.sendIfPending f (k % 2048)) s

/-! ## Handles and rings (R335) -/

/-- The ring that a handle names. -/
def ringOf (h : Word) : RingId := if field h 48 8 = 0xFF then .admin else .ctx (field h 56 8) (field h 48 8)

/-- The sequence number of a handle. -/
def seqOf (h : Word) : Nat := field h 0 48

/-- A handle from its fields. -/
def handleOf (target ring seq : Nat) : Word := BitVec.ofNat 64 (target * 2 ^ 56 + ring * 2 ^ 48 + seq % 2 ^ 48)

/-- The ring number in handles. -/
def ringNo : RingId → Nat
  | .ctx _ r => r
  | .admin => 0xFF

/-- Where a dependency stands (R337). -/
inductive DepState where
  | pending | met | failed
  deriving DecidableEq, Repr

/-- The state of one dependency: a handle not fetched or not completed is pending; one completed more than 4096 commands ago is met as
OK; an absent ring's handles stay pending. -/
def State.depState (s : State) (h : Word) : DepState :=
  match s.ring (ringOf h) with
  | none => .pending
  | some r =>
    if r.fetched ≤ seqOf h || (s.cmd h).isSome then .pending
    else if 4096 < r.fetched - 1 - seqOf h then .met
    else match r.doneLog.find? fun e => e.1 == seqOf h with
      | some e => if e.2 ≤ 1 then .met else .failed
      | none => .met

/-- Every dependency has completed. -/
def State.depsDone (s : State) (m : Cmd) : Bool := m.deps.all fun h => s.depState h != .pending

/-- Some dependency has completed with a status other than OK or PARTIAL, and DEP_ANY is not set (R337). -/
def State.depsFailed (s : State) (m : Cmd) : Bool := !m.flags.testBit 3 && m.deps.any fun h => s.depState h == .failed

/-- AFTER_PREV: every command fetched earlier from the same ring has completed (R336). -/
def State.prevDone (s : State) (m : Cmd) : Bool :=
  !m.flags.testBit 2 || s.cmds.all fun n => n.ring != m.ring || m.order ≤ n.order

/-! ## Failures and the status (R349) -/

/-- The failed parts of a command with their statuses: a failure of the whole command fails every part that has not failed. -/
def Cmd.failures (m : Cmd) : List (Nat × Nat) :=
  match m.whole with
  | none => m.failed
  | some w => (List.range m.nparts).map fun p => (p, (Tab.opt m.failed p).getD w)

/-- The status derived from the parts; LOAD_GEN reports INCOMPLETE for failed shards, and wherever others report PARTIAL
(R279, R349). -/
def Cmd.finalStatus (m : Cmd) : Nat :=
  let f := m.failures
  match f with
  | [] => 0
  | e :: _ =>
    if m.op = 0x10 && m.whole.isNone then 0x0A
    else if f.length = m.nparts && (f.all fun g => g.2 == e.2) then e.2
    else if m.op = 0x10 then 0x0A else 1

/-- Fail a part that has not failed yet: the first failure decides. -/
def Cmd.failPart (m : Cmd) (p status : Nat) : Cmd :=
  if (Tab.opt m.failed p).isSome then m else { m with failed := Tab.ins m.failed p status }

/-- Fail the whole command, unless it has failed as a whole already. -/
def Cmd.failWhole (m : Cmd) (status detail : Nat) : Cmd :=
  if m.whole.isSome then m else { m with whole := some status, detail }

/-! ## Clip shares (R71) -/

/-- A clip share. -/
def clipShare (clipped written : Nat) : Nat := if written = 0 then 0 else min (clipped * 65536 / written) 0xFFFF

/-- Written and clipped counts of a command by tag, without the elements of failed rows (R71). -/
def Cmd.clipCounts (m : Cmd) (failedRow : Nat → Bool) : Tab (Nat × Nat) :=
  (m.rowStats.filter fun e => !failedRow e.1).foldl (fun t e =>
    Tab.upd t (0, 0) e.2.1 fun c => (c.1 + e.2.2.1, c.2 + e.2.2.2)) []

/-- CLIP_MAX, CLIP_TAG and CLIP_ALL. -/
def clipFields (t : Tab (Nat × Nat)) : Nat × Nat × Nat :=
  let best := t.foldl (fun (b : Option (Nat × Nat)) e =>
    let v := clipShare e.2.2 e.2.1
    match b with
    | some (m, _) => if m < v then some (v, e.1) else b
    | none => some (v, e.1)) none
  let b := best.getD (0, 0)
  (b.1, b.2, clipShare ((t.map fun e => e.2.2).sum) ((t.map fun e => e.2.1).sum))

/-! ## Destinations of failed parts (R350, R351) -/

/-- Rows of a group of ceil(rows / 64). -/
def groupRows (rows : Nat) : Nat := ceilDiv rows 64

/-- The descriptor at an address, read without any effect. -/
def State.peekDesc (s : State) (x va : Nat) : Option Desc :=
  match s.vpeek x va 32 with
  | none => none
  | some b => if va % 32 = 0 && descValid b then some (descOf b) else none

/-- The address of the descriptor of a command's destination (R350). -/
def Cmd.destVa (m : Cmd) : Nat :=
  if m.op = 0x30 then leAt m.body 0x30 6 else if m.op = 0x40 then leAt m.body 8 6 else leAt m.body 0 6

/-- The destination of a command by parts: its descriptor and the rows of each part (R350, R351). -/
def State.destParts (s : State) (m : Cmd) : Option (Desc × (Nat → List Nat)) :=
  if m.op = 0x30 then (s.peekDesc m.target (leAt m.body 0x30 6)).map fun d => (d, fun p => [p])
  else if m.op = 0x40 then (s.peekDesc m.target (leAt m.body 8 6)).map fun d =>
    (d, fun p => (List.range (groupRows d.rows)).map (fun i => p * groupRows d.rows + i) |>.filter (· < d.rows))
  else if m.op = 0x41 then (s.peekDesc m.target (leAt m.body 0 6)).map fun d =>
    (d, fun p => (List.range (groupRows d.rows)).map (fun i => p * groupRows d.rows + i) |>.filter (· < d.rows))
  else none

/-- Codewords of the virtual addresses of some rows. -/
def rowCws (d : Desc) (rows : List Nat) : List Nat :=
  (rows.flatMap fun r => (pieces (d.rowVa r) (rowLen d.fmt d.cols)).map fun p => p.1 / 128).eraseDups

/-- Close the failed parts over shared codewords: every part with a codeword of a failed one fails as POISONED, until none is left
(R351). -/
def closeParts (cws : List (Nat × List Nat)) : Nat → List (Nat × Nat) → List (Nat × Nat)
  | 0, f => f
  | n + 1, f =>
    let bad := (cws.filter fun c => (Tab.opt f c.1).isSome).flatMap fun c => c.2
    let new := cws.filter fun c => (Tab.opt f c.1).isNone && c.2.any fun w => w ∈ bad
    if new.isEmpty then f else closeParts cws n (new.foldl (fun f c => Tab.ins f c.1 0x06) f)

/-- Poison the destinations of the failed parts of a command that was released, and fail the parts that share their codewords (R351);
answered with the failures of every part. -/
def State.poisonDest (s : State) (m : Cmd) : State × Cmd :=
  if m.st == .waiting || m.failures.isEmpty then (s, m)
  else
   let s := s.touch m.target (some m.handle) {} m.destVa 32
   match s.destParts m with
    | none => (s, m)
    | some (d, rows) =>
      let cws := (List.range m.nparts).map fun p => (p, rowCws d (rows p))
      let f := closeParts cws (m.nparts + 1) m.failures
      let bad := ((cws.filter fun c => (Tab.opt f c.1).isSome).flatMap fun c => c.2).eraseDups
      (bad.foldl (fun s w => s.vpoison m.target (some m.handle) {} (128 * w) 128) s,
       match m.whole with
       | some _ => m
       | none => { m with failed := f })

/-! ## The end of a command -/

/-- The completion record of a command (R347). -/
def Cmd.record (m : Cmd) (clip : Nat × Nat × Nat) : Cpl :=
  let f := m.failures
  { handle := m.handle, status := m.finalStatus, late := m.late, acc := m.acc, exit := m.exit, detail := m.detail
    turnRel := m.turnRel, clipMax := clip.1, clipTag := clip.2.1, clipAll := clip.2.2, parts := m.nparts, failed := f.length
    partMap := BitVec.ofNat 64 (ofBits ((f.map fun e => e.1).filter (· < 64))), value := m.value, irq := m.flags.testBit 0
    rel := m.st != .waiting }

/-- Is there a free completion slot (R331)? -/
def Ring.room (r : Ring) : Bool := (r.written + 2 ^ 16 - r.cqHead.toNat) % 2 ^ 16 < 2 ^ r.cqLog

/-- Note the tick from which a ready record is held for want of a free slot (R331, R355). -/
def Ring.noteFull (r : Ring) (now : Nat) : Ring :=
  if r.fullSince.isNone && !r.ready.isEmpty && !r.room then { r with fullSince := some now } else r

/-- A command completes as it stands: its record is ready, and it leaves the command table (R340, R347). -/
def State.retireCmd (s : State) (m : Cmd) (clip : Nat × Nat × Nat) : State :=
  let s : State := { s with cmds := s.cmds.filter fun n => n.handle != m.handle }
  s.modRing m.ring fun r => { r with
    ready := r.ready ++ [m.record clip]
    doneLog := r.doneLog ++ [(seqOf m.handle, m.finalStatus)] }.noteFull s.now

/-- Complete a command with the failures that stand in it. -/
def State.finish (s : State) (h : Word) : State :=
  match s.cmd h with
  | none => s
  | some m =>
    let r := s.poisonDest m
    let m := r.2
    let f := m.failures
    let rows := if f.isEmpty then [] else match s.destParts m with
      | none => []
      | some (d, rows) => f.flatMap fun e => (rows e.1).map fun i => (d.rowVa i, rowLen d.fmt d.cols)
    r.1.retireCmd m (clipFields (m.clipCounts fun va => rows.any fun w => w.1 ≤ va && va < w.1 + w.2))

/-- Complete a command by a failure of the whole command. -/
def State.failCmd (s : State) (h : Word) (status detail : Nat) : State := (s.modCmd h fun m => m.failWhole status detail).finish h

/-- Complete a command with a value. -/
def State.okCmd (s : State) (h value : Word) : State := (s.modCmd h fun m => { m with value }).finish h

/-- Commands of a context's own rings. -/
def State.cmdsOf (s : State) (x : Nat) : List Cmd := s.cmds.filter fun m => match m.ring with
  | .ctx y _ => y == x
  | .admin => false

/-! ## Records in host memory (R331, R347) -/

/-- The 64 bytes of a completion record. -/
def Cpl.bytes (c : Cpl) (phase : Bool) (cons : Nat) (turn : BitVec 64) : Bytes :=
  toLe 8 c.handle.toNat ++ toLe 1 c.status ++
    toLe 1 ((if phase then 128 else 0) + (if c.late then 64 else 0) + c.acc % 16) ++ toLe 1 c.exit ++ toLe 1 c.detail ++ toLe 4 cons ++
    toLe 8 (if c.rel then c.turnRel else turn).toNat ++ toLe 8 turn.toNat ++ toLe 2 c.clipMax ++ toLe 2 c.clipTag ++
    toLe 2 c.clipAll ++ toLe 2 0 ++ toLe 4 c.parts ++ toLe 4 c.failed ++ toLe 8 c.partMap.toNat ++ toLe 8 c.value.toNat

/-- Write the oldest ready record of a ring into its completion slot, and announce it if one of the conditions of R353 holds. -/
def State.writeRecord (s : State) (id : RingId) (r : Ring) (c : Cpl) : State :=
  let phase := r.written / 2 ^ r.cqLog % 2 = 0
  let s := s.hostWrite r.func (r.cqBase + 64 * (r.written % 2 ^ r.cqLog)) (c.bytes phase (r.cons.toNat) s.turn.count) true
  let s := s.modRing id fun r => 
    { r with ready := r.ready.drop 1, written := r.written + 1, unannounced := r.unannounced + 1 }.noteFull s.now
  let s := (s.bumpRing id 1 1).bumpRing id 2 (if c.late then 1 else 0)
  if c.irq || r.irqTimer = 0 || r.irqCount ≤ r.unannounced + 1 then s.sendMsix r.func r.vector else s

/-- A ring stops (R354): cause 0 a descriptor read, 1 a completion write. -/
def State.stopRing (s : State) (id : RingId) (cause : Nat) : State :=
  let s := (s.modRing id fun r => { r with stopped := true, retrying := false }).bumpRing id 5 1
  match id with
  | .ctx x r => s.raise { code := 0x0608, ctx := some x, unit := 9, detail := [r, cause] }
  | .admin => s.raise { code := 0x0608, unit := 9, detail := [0xFF, cause] }

/-! ## Doorbells (R329, R330) -/

/-- Act on a doorbell word: RESUME restarts a stopped ring; a word with a reserved bit set, or whose producer index is too far ahead, is
ignored and counted (R330, R354). Once a slot is free, the microseconds for which a record was held are counted (R355; log entry 142). -/
def State.doorbell (s : State) (id : RingId) (v : Word) : State :=
  match s.ring id with
  | none => s
  | some r =>
    if field v 48 15 != 0 || 2 ^ r.sqLog < ahead32 (field v 0 32) r.cons.toNat then s.bumpRing id 3 1
    else
      let q := { r with
        word := v
        prod := BitVec.ofNat 32 (field v 0 32)
        cqHead := BitVec.ofNat 16 (field v 32 16)
        stopped := r.stopped && !bitAt v 63 }
      if q.room then
        (s.modRing id fun _ => { q with fullSince := none }).bumpRing id 4 ((q.fullSince.map fun t => (s.now - t) / 100).getD 0)
      else s.modRing id fun _ => q

end Sys2Proof.Machine
end

