-- ==== Sys2Proof/Machine/Ledger.lean ====
section
/-! DEFINITION. The treatment ledger (R526 to R543): records, their bytes, the chain, and the seals. -/

namespace Sys2Proof.Machine

/-- Records that the store of one ledger holds (R526). -/
def ledgerCap : Nat := 262144

/-- Signature blocks that the store of one ledger holds (R526). -/
def ledgerSigs : Nat := 4096

/-- The bytes of a digest. -/
def digestBytes (d : Digest) : Bytes := toLe 64 d.toNat

/-- The digest in 64 bytes. -/
def digestOf (b : Bytes) : Digest := BitVec.ofNat 512 (ofLe (b.take 64))

/-- The 384 bytes of a record (R531). -/
def LedRec.bytes (r : LedRec) : Bytes :=
  toLe 8 r.recno ++ toLe 8 r.turn.toNat ++ toLe 4 r.phase.toNat ++ toLe 1 r.kind ++ toLe 1 r.ctx ++ toLe 1 r.func ++ toLe 1 r.width ++
    toLe 2 r.modes ++ toLe 1 r.rflags ++ toLe 1 r.status ++ toLe 1 r.cores ++ toLe 1 r.amin ++ toLe 2 0 ++ toLe 8 r.handle.toNat ++
    toLe 8 0 ++ digestBytes r.prev ++ digestBytes r.genDigest ++ digestBytes r.fwDigest ++ fitTo 144 r.body

/-- The number of the governor's state in MODES (R532). -/
def GovState.code : GovState → Nat
  | .governed => 0
  | .level => 1
  | .levelSuspended => 2
  | .paced => 3
  | .keeper => 3

/-- The number of the turn source in MODES (R532). -/
def sourceCode : Option TurnSource → Nat
  | some .ptp => 1
  | some .internal => 2
  | _ => 0

/-- MODES of a record of a context (R532): the governor's state, the ring of the command, and whether GEN_DIGEST names a generation
expanded at use. -/
def State.modesWord (s : State) (x gov : Nat) (h : Option Word) (atUse : Bool) : Nat :=
  let cx := s.ctx x
  let mmio := h.any fun h => (s.ring (ringOf h)).any fun r => r.mmio
  sourceCode s.turn.params.source * 2048 + (if s.net.layout = 4 then 2 else if s.net.layout = 2 then 1 else 0) * 512 + gov * 64 +
    (if mmio then 32 else 0) + (if cx.req.modes.testBit 2 then 16 else 0) + (if cx.req.modes.testBit 1 then 8 else 0) +
    (if atUse then 4 else 0) + (if cx.uniformAtOpen then 2 else 0) + (if cx.req.modes.testBit 0 then 1 else 0)

/-- What one record adds to the common fields. -/
structure LedNew where
  kind   : Nat
  handle : Option Word := none
  gen    : Option Nat := none
  rflags : Nat := 0
  status : Nat := 0
  amin   : Nat := 0
  gov    : Nat
  body   : Bytes
  deriving DecidableEq, Repr

/-- Records not yet sealed (R528). -/
def Ledger.unsealed (l : Ledger) : Nat :=
  match l.lastSeal with
  | none => l.next
  | some n => l.next - (n + 1)

/-- Do `n` more records fit, the seal's own record besides (R528; log entry 16)? -/
def Ledger.room (l : Ledger) (n : Nat) : Bool := l.unsealed + n < ledgerCap

/-- Add a record to the store: a full store gives up its oldest record, which counts as lost if nobody has read it (R528). -/
def Ledger.push (l : Ledger) (r : LedRec) : Ledger × Nat :=
  let full := ledgerCap ≤ l.records.length
  let lost := if full then (match l.records.head? with
    | some o => if o.recno ∈ l.readSet then 0 else 1
    | none => 0) else 0
  let old := if full then ((l.records.head?).map fun o => o.recno).getD 0 else 0
  ({ l with
      records := (if full then l.records.drop 1 else l.records) ++ [r]
      next := l.next + 1
      chain := sha512 r.bytes
      sigs := if full then l.sigs.filter fun g => g.1 != old else l.sigs
      readSet := if full then l.readSet.filter fun n => n != old else l.readSet
      lostSince := l.lostSince + lost }, lost)

/-- The digest of a generation of a context, zero for none. -/
def State.genDigest (s : State) (x : Nat) (g : Option Nat) : Digest :=
  match g.bind fun g => s.genBody x g with
  | some b => b.digest
  | none => 0

/-- Append a record to the ledger of a context (R527, R531, R534); three quarters of the store unsealed call for an automatic seal
(R528). A context whose ledger store is lost has no ledger (R378). -/
def State.appendRec (s : State) (x : Nat) (n : LedNew) : State :=
  let cx := s.ctx x
  if cx.st == .broken then s else
  let g := match n.kind with
    | 0x00 | 0x06 | 0x07 | 0x08 => cx.current
    | _ => n.gen
  let atUse := (g.bind fun g => s.genBody x g).any fun b => b.atUse
  let r : LedRec := {
    recno := cx.ledger.next, turn := s.turn.count, phase := s.turn.phase, kind := n.kind, ctx := x, func := cx.req.func
    width := cx.width, modes := s.modesWord x n.gov n.handle atUse, rflags := n.rflags, status := n.status, cores := cx.req.cores
    amin := n.amin, handle := n.handle.getD 0, prev := cx.ledger.chain, genDigest := s.genDigest x g
    fwDigest := s.fw.running.digest, body := fitTo 144 n.body }
  let p := cx.ledger.push r
  let l := p.1
  let l := if 3 * ledgerCap ≤ 4 * l.unsealed then { l with autoSeal := true } else l
  let s := s.modCtx x fun cx => { cx with ledger := l }
  let s := s.bumpFw x 22 1
  if p.2 = 0 then s else s.bumpFw x 24 p.2

/-- The certificate of the attestation key in force (R496, R500). -/
def State.akCert (s : State) : Bytes := Config.certificate (16 + s.sec.akGen)

/-- A signature by the attestation key in force (R496). -/
def State.akSign (s : State) (d : Bytes) : Bytes := Config.sign (16 + s.sec.akGen) d

/-- Make one seal of a context (R535, R536): its record, its signature block, and LEDGER_SEALED. -/
def State.seal (s : State) (x cause : Nat) (h : Option Word) (gov : Nat) : State :=
  let l := (s.ctx x).ledger
  let n := l.next
  let first := match l.lastSeal with
    | none => 0
    | some m => m + 1
  let last := n + 2 ^ 64 - 1
  let body := toLe 8 first ++ toLe 8 last ++ toLe 8 l.lostSince ++ toLe 8 s.factory.device.toNat ++ digestBytes (sha512 s.akCert) ++ toLe 1 cause
  let s := s.appendRec x { kind := 0x07, handle := h, gov, body }
  let sig := match (s.ctx x).ledger.records.getLast? with
    | some r => s.akSign r.bytes
    | none => []
  let s := s.modCtx x fun cx => { cx with ledger := { cx.ledger with
    lastSeal := some n
    lostSince := 0
    autoSeal := false
    sigs := (cx.ledger.sigs ++ [(n, sig)]).drop (cx.ledger.sigs.length + 1 - ledgerSigs) } }
  (s.bumpFw x 23 1).raiseCtx x 0x0E01 [n, first, last % 2 ^ 64]

/-- The causes for which a context's ledger is sealed at the boundary of turn n (R528, R536, R543), SEAL_LEDGER commands apart; a boundary that
carries several turns is the boundary of each (R41). -/
def State.sealDue (s : State) (x : Nat) : Nat :=
  (if (s.ctx x).ledger.autoSeal then 4 else 0) +
    (if s.params.sealEvery != 0 && (s.turn.lowest.toNat + s.params.sealEvery - 1) / s.params.sealEvery * s.params.sealEvery ≤ s.turn.count.toNat
     then 2 else 0)

/-- Keep the ledger of a context that closes: at most 16 closed ledgers, the oldest given up first (R529). -/
def State.keepClosed (s : State) (l : Ledger) : State :=
  let all := s.closedLedgers ++ [l]
  let s : State := { s with closedLedgers := all.drop (all.length - 16) }
  if 16 < all.length then s.bump (ctrAddr 7 0 0 19) 1 else s

/-- Body of an OPEN or ADOPT record (R533). -/
def State.openBody (s : State) (x cause : Nat) : Bytes :=
  let q := (s.ctx x).req
  toLe 8 s.factory.device.toNat ++ toLe 8 q.pool ++ toLe 1 q.shelves ++ toLe 1 q.qmask ++ toLe 1 q.width ++ toLe 1 cause

/-- A key as a record holds it: bytes 0 to 15 of its digest in a protected context (R533). -/
def State.keyField (s : State) (x : Nat) (k : Key128) : Bytes :=
  if (s.ctx x).req.modes.testBit 1 then (digestBytes (sha512 (toLe 16 k.toNat))).take 16 else toLe 16 k.toNat

/-- KEYS_HASHED of the records that hold keys (R531, R533). -/
def State.keysHashed (s : State) (x : Nat) : Nat := if (s.ctx x).req.modes.testBit 1 then 0x40 else 0

/-- LATE of a command in RFLAGS. -/
def lateFlag (late : Bool) : Nat := if late then 0x80 else 0

/-- Records that a command will append, judged before its release: one per list entry of a STEP, one for the other commands of the
table of R527 (R528). -/
def Cmd.ledgerNeed (m : Cmd) : Nat :=
  if m.op = 0x30 then leAt m.body 0x28 2
  else if m.op ∈ [0x12, 0x20, 0x21, 0x22] then 1 else 0

end Sys2Proof.Machine
end

