-- ==== Sys2Proof/Machine/Pages.lean ====
section
/-! DEFINITION. Pages that the firmware gives out (R358, R601), page tables of a context (R248, R249), and the scrubbing of what is given
back (R258, R379). -/

namespace Sys2Proof.Machine

/-- 2 MiB pages in one quadrant's address space. -/
def quadPages : Nat := 2 ^ 20

/-- The first page that may not be used after the last whole page below a byte offset. -/
def pageFloor (b : Nat) : Nat := b / Config.page

/-- Device pages of a host frame: 1 GiB of CXL.mem (R320). -/
def State.framed (s : State) : List Nat :=
  (s.host.frames.filter fun e => bitAt e.2 63).map fun e => field e.2 0 13 * 512

/-- The quadrant-local range of a quadrant, in pages: empty where its memory is unavailable (R240, R247). -/
def State.localRange (s : State) (q : Nat) : Nat × Nat :=
  if s.memUp q then (q * quadPages, q * quadPages + pageFloor s.gBytes) else (0, 0)

/-- Does a global region exist (R247)? -/
def State.hasGlobal (s : State) : Bool := s.gBytes < Config.qLimit

/-- The global region's share of a quadrant, in pages. -/
def State.globalRange (s : State) (q : Nat) : Nat × Nat :=
  if (List.range 4).all s.memUp && s.hasGlobal then (q * quadPages + ceilDiv s.gBytes Config.page, q * quadPages + pageFloor Config.qLimit)
  else (0, 0)

/-- The lowest `need` pages from `lo` up to `hi` that the rising list of used pages does not name. -/
def freeWalk : Nat → Nat → Nat → Nat → List Nat → List Nat
  | 0, _, _, _, _ => []
  | f + 1, lo, hi, need, used =>
    if need = 0 || hi ≤ lo then []
    else match used with
      | [] => lo :: freeWalk f (lo + 1) hi (need - 1) []
      | u :: r => if u < lo then freeWalk f lo hi need r
        else if u = lo then freeWalk f (lo + 1) hi need r
        else lo :: freeWalk f (lo + 1) hi (need - 1) (u :: r)

/-- Is a page inside a framed 1 GiB range (R320)? -/
def inFrames (frames : List Nat) (p : Nat) : Bool := frames.any fun f => f ≤ p && p < f + 512

/-- Free pages of a range, at most `need`: a framed range counts as used. -/
def State.freeIn (s : State) (r : Nat × Nat) (need : Nat) : List Nat :=
  let inR : Nat → Bool := fun p => r.1 ≤ p && p < r.2
  let framed := s.framed.flatMap fun f => (List.range 512).map fun i => f + i
  let used := sortBy id (((s.mem.pages.map fun e => e.1) ++ s.mem.retired ++ framed).filter inR)
  freeWalk (need + used.length + 1) r.1 r.2 need used

/-- Free pages of some ranges in order of preference; none if they do not hold enough. -/
def State.freeOf (s : State) : List (Nat × Nat) → Nat → Option (List Nat)
  | [], need => if need = 0 then some [] else none
  | r :: rs, need =>
    let l := s.freeIn r need
    (s.freeOf rs (need - l.length)).map fun m => l ++ m

/-- Give pages out. -/
def State.giveOut (s : State) (l : List Nat) (u : PageUse) : State :=
  { s with mem := { s.mem with pages := l.foldl (fun t p => Tab.ins t p u) s.mem.pages } }

/-- The ranges for the private pages of a context in order of preference (R601). -/
def State.privateRanges (s : State) (x : Nat) : List (Nat × Nat) :=
  let cx := s.ctx x
  let others := (List.range 4).filter fun q => q != cx.home && cx.req.qmask.testBit q
  (if cx.req.qmask = 15 && s.hasGlobal && s.net.layout = 1 then (List.range 4).map s.globalRange else []) ++
    (cx.home :: others).map s.localRange

/-- The quadrants of a partition. -/
def State.partQuads (s : State) (p : Nat) : List Nat := (List.range 4).filter fun q => s.partOfQuad q == p

/-- Take `n` private pages for a context; none where R601 finds no place. -/
def State.takePrivate (s : State) (x n : Nat) (u : PageUse) : Option (State × List Nat) :=
  (s.freeOf (s.privateRanges x) n).map fun l => (s.giveOut l u, l)

/-- Take `n` firmware pages of a context in its home quadrant. -/
def State.takeFirmware (s : State) (x n : Nat) : Option State :=
  (s.freeOf [s.localRange (s.ctx x).home] n).map fun l => s.giveOut l (.firmware x)

/-- 2 MiB pages of the firmware items of a context (R358, R526). -/
def OpenReq.firmwarePages (q : OpenReq) : Nat :=
  ceilDiv (65536 + 0x200000 + q.cores * 0x106000 + q.cores * q.shelves * 0x11000 + ledgerCap * 384 + ledgerSigs * 512) Config.page

/-- The pages that a use names. -/
def Mem.pagesOf (m : Mem) (p : PageUse → Bool) : List Nat := (m.pages.filter fun e => p e.2).map fun e => e.1

/-- Take back the lines of some pages that the host may cache (R322). -/
def State.takeLines (s : State) (l : List Nat) : State :=
  let hit := s.host.snoop.filter fun n => n * 64 / Config.page ∈ l
  if hit.isEmpty then s
  else { s with host := { s.host with snoop := s.host.snoop.filter fun n => n * 64 / Config.page ∉ l }, out := s.out ++ hit.map Out.invalidate }

/-- Scrub pages and give them back (R258, R322, R379). -/
def State.freePages (s : State) (l : List Nat) : State :=
  let s := s.takeLines l
  let m := l.foldl (fun (m : Mem) p => m.scrub (p * Config.page) Config.page) s.mem
  { s with mem := { m with pages := m.pages.filter fun e => e.1 ∉ l } }

/-- The leaf of a page. -/
def leafOf (page slot : Nat) (w x tier : Bool) : Pte := { slot, addr := page * 512, tier, x, w, leaf := true, v := true }

/-- An entry that leads to a table of the next level, by that table's number. -/
def Ctx.tableEntry (cx : Ctx) (n : Nat) : Pte := { v := true, addr := (cx.tableAt n).getD 0 / 4096 }

/-- Map a run of 2 MiB pages at a virtual address, in tables that the context has (R248, R249). -/
def Ctx.mapPages (cx : Ctx) (va slot : Nat) (w x tier : Bool) (l : List Nat) : Ctx :=
  l.zipIdx.foldl (fun cx e =>
    let i := va / Config.page + e.2
    { cx with ptL2 := Tab.put cx.ptL2 {} i (leafOf e.1 slot w x tier)
              ptL1 := Tab.put cx.ptL1 {} (i / 512) (cx.tableEntry (513 + i / 512))
              ptL0 := Tab.put cx.ptL0 {} (i / 262144) (cx.tableEntry (1 + i / 262144)) }) cx

/-- The tables that pages of a context's address space need, by number. -/
def tablesFor (l : List Nat) : List Nat := (0 :: l.flatMap fun i => [1 + i / 262144, 513 + i / 512]).eraseDups

/-- Allocate the tables for pages of the address space that a context does not have yet, 512 in each firmware page of its home quadrant; none
where no page is left for them (R248, R358, R601). -/
def State.growTables (s : State) (x : Nat) (l : List Nat) : Option State :=
  let cx := s.ctx x
  let new := (tablesFor l).filter fun n => (Tab.opt cx.tables n).isNone
  let need := ceilDiv (cx.tables.length + new.length) 512 - cx.tablePages.length
  (s.freeOf [s.localRange cx.home] need).map fun p => (s.giveOut p (.firmware x)).modCtx x fun cx =>
    { cx with tablePages := cx.tablePages ++ p, tables := new.zipIdx.foldl (fun t e => Tab.ins t e.1 (cx.tables.length + e.2)) cx.tables }

/-- Catalogue entries of a context. -/
def Ctx.entries (cx : Ctx) : List Nat := cx.seqs.flatMap fun q => q.2.cat.map fun e => e.2.entryAt

/-- Make room for n more catalogue entries, 65 536 in each firmware page of the home quadrant: the lowest free places; none where no page is left
(R301, R358, R601). -/
def State.growCatalogue (s : State) (x n : Nat) : Option (State × List Nat) :=
  let cx := s.ctx x
  let used := sortBy id cx.entries
  let need := ceilDiv (used.length + n) 65536 - cx.catPages.length
  (s.freeOf [s.localRange cx.home] need).map fun p =>
    ((s.giveOut p (.firmware x)).modCtx x fun cx => { cx with catPages := cx.catPages ++ p },
     freeWalk (n + used.length + 1) 0 (used.length + n) n used)

/-- Remove the leaves of a run of 2 MiB pages; the tables stay. -/
def Ctx.unmapPages (cx : Ctx) (va n : Nat) : Ctx := { cx with ptL2 := Tab.clear cx.ptL2 (va / Config.page) n }

/-- Where the pool is mapped (log entry 17). -/
def poolBase : Nat := 0x200000000000

/-- Where the generation with place k of 32 is mapped (log entry 17). -/
def genBase (k : Nat) : Nat := 0x400000000000 + k * 2 ^ 42

end Sys2Proof.Machine
end

