-- ==== Sys2Proof/Machine/Contexts.lean ====
section
/-! DEFINITION. Qualification and choice of cores, placement, take-off and restore of contexts, the start of kernels, memory key slots
and scrub records (R235, R356 to R370, R513, R523, R524). -/

namespace Sys2Proof.Machine

/-! ## Qualification (R356, R369) -/

/-- Is the power domain of a core, and what it depends on, free of regulator faults (R22, R25)? -/
def State.coreUp (s : State) (c : Nat) : Bool := !(s.board.faulted.any fun d => d == 0 || d == 4 || d == 6 + c / 32 || d == 10 + c / 4)

/-- Physical arrays of a core presented at a width: all that work, for width 0. -/
def State.presented (s : State) (c w : Nat) : List Nat :=
  (List.range 8).filter fun a => 0 < s.arrayWidth (8 * c + a) && w ≤ s.arrayWidth (8 * c + a)

/-- Is a core to be tested before it serves again (R482)? -/
def State.underTest (s : State) (c : Nat) : Bool := (List.range 8).all fun a => 8 * c + a ∈ s.units.testDue

/-- Does a core qualify for a request at a width; 0 before the width is fixed (R356)? -/
def State.qualifies (s : State) (q : OpenReq) (w c : Nat) : Bool :=
  c ∉ s.units.withdrawn && q.qmask.testBit (c / 32) && s.partOfQuad (c / 32) == (s.func q.func).partition && s.coreUp c &&
    !(s.presented c w).isEmpty && 0 < s.engineWidth c && w ≤ s.engineWidth c

/-- The width that a request fixes before its placement; 0 where the first core set decides (R90). -/
def State.widthFor (s : State) (q : OpenReq) : Nat := if s.params.uniform then s.params.wU else q.width

/-- Cores of a quadrant that qualify. -/
def State.qualCores (s : State) (q : OpenReq) (w quad : Nat) : List Nat :=
  ((List.range 32).map fun i => 32 * quad + i).filter (s.qualifies q w)

/-- The home quadrant of a request (R358). -/
def State.homeFor (s : State) (q : OpenReq) : Option Nat :=
  let w := s.widthFor q
  let l := (List.range 4).filter fun i => q.qmask.testBit i && s.memUp i
  l.foldl (fun (b : Option Nat) i => match b with
    | none => some i
    | some j => if (s.qualCores q w j).length < (s.qualCores q w i).length then some i else b) none

/-! ## Choice of the core set (R362) -/

/-- Cores in the order of preference for a logical core without residence: the home quadrant first. -/
def coreOrder (home : Nat) : List Nat :=
  ((List.range 32).map fun i => 32 * home + i) ++ ((List.range 128).filter fun c => c / 32 != home)

/-- Arrays that the saved kernel of a logical core needs (R369). -/
def LCore.need (l : LCore) : Nat := match l.saved with
  | some e => if e.running then popCount 8 e.amask.toNat else 0
  | none => 0

/-- Give each logical core of a list the first core of its preferences that is not taken. -/
def assignCores (ok : Nat → Nat → Bool) (prefs : List Nat) : List (Nat × Nat × Option Nat) → List Nat → Option (List (Nat × Nat))
  | [], _ => some []
  | (k, need, home) :: r, taken =>
    match ((home.toList ++ prefs).find? fun c => c ∉ taken && ok need c) with
    | none => none
    | some c => (assignCores ok prefs r (c :: taken)).map fun l => (k, c) :: l

/-- The core set of a context among the cores that a test admits: residents keep their cores where that is possible (R362), and logical
cores with saved kernels get cores that present enough arrays (R369). The physical core of each logical core is answered. -/
def State.chooseCores (s : State) (x : Nat) (admits : Nat → Bool) (keep : Bool) : Option (List Nat) :=
  let cx := s.ctx x
  let w := if cx.width = 0 then s.widthFor cx.req else cx.width
  let ok : Nat → Nat → Bool := fun need c => s.qualifies cx.req w c && admits c && need ≤ (s.presented c w).length
  let all : List (Nat × Nat × Option Nat) := (List.range cx.req.cores).map fun k => (k, (s.lcore x k).need, (s.lcore x k).home)
  let byNeed : List (Nat × Nat × Option Nat) := sortBy (fun e => 8 - e.2.1) all
  let first := byNeed.filter (fun e => e.2.2.isSome) ++ byNeed.filter (fun e => e.2.2.isNone)
  let prefs := coreOrder cx.home
  let r : Option (List (Nat × Nat)) := match assignCores ok prefs first [] with
    | some l => some l
    | none => if keep then none else assignCores ok prefs (byNeed.map fun e => (e.1, e.2.1, none)) []
  r.map fun l => (sortBy (fun (e : Nat × Nat) => e.1) l).map fun e => e.2

/-- Is no context running on a core (R362)? -/
def State.coreIdle (s : State) (c : Nat) : Bool := (s.core c).owner.isNone

/-- Is a core free for a context: none runs there, and it has no test to pass first (R362, R482)? -/
def State.coreFree (s : State) (c : Nat) : Bool := s.coreIdle c && !s.underTest c

/-- Could a context be placed if every other were absent (R370)? -/
def State.couldPlace (s : State) (x : Nat) : Bool := (s.chooseCores x (fun _ => true) false).isSome

/-- The core group of a core is powered, and is no longer unused (R22, R24, R452). -/
def State.powerCore (s : State) (c : Nat) : State :=
  { s with board := { s.board with domains := s.board.domains ||| (1#46 <<< (10 + c / 4)) }
           gov := { s.gov with idleTurns := Tab.del s.gov.idleTurns (c / 4) } }

/-! ## Shelves (R135 to R138) -/

/-- Logical cores resident on a core: (context, logical core, shelves). -/
def State.residents (s : State) (c : Nat) : List (Nat × Nat × Nat) :=
  s.ctxs.flatMap fun e => (e.2.lcores.filter fun l => l.2.home == some c).map fun l => (e.1, l.1, e.2.req.shelves)

/-- Physical shelves of a core not in use. -/
def State.unusedShelves (s : State) (c : Nat) : List Nat :=
  let used := s.ctxs.flatMap fun e => (e.2.lcores.filter fun l => l.2.home == some c).flatMap fun l => l.2.shelves
  (List.range 192).filter fun i => i ∉ used

/-- Evict the shelves of a logical core (R137): from here on new remote accesses are refused (`State.resident`), while the parts still to come of
those accepted before go on into its rows and slots, which are what eviction saves (log entry 126). -/
def State.evict (s : State) (x k : Nat) : State :=
  (s.modLcore x k fun l => { l with home := none, shelves := [] }).bumpFw x 4 (s.ctx x).req.shelves

/-- Evict swapped-out contexts from a core until `need` shelves are unused: the one run least recently first, then the higher number
(R136; log entry 18). -/
def State.makeRoom (s : State) (c need : Nat) : Nat → State
  | 0 => s
  | f + 1 =>
    if need ≤ (s.unusedShelves c).length then s
    else
      let v := (s.residents c).filter fun e => (s.ctx e.1).placed.isEmpty
      match (sortBy (fun (e : Nat × Nat × Nat) => (s.ctx e.1).lastRun.toNat * 512 + (255 - e.1)) v) with
      | [] => s
      | e :: _ => (s.evict e.1 e.2.1).makeRoom c need f

/-- Make the shelves of a logical core resident on a core; shelves that were given before return there (R137, R138). -/
def State.settleShelves (s : State) (x k c : Nat) (first : Bool) : State :=
  let n := (s.ctx x).req.shelves
  let l := s.lcore x k
  if l.home = some c then s
  else
    let s := if l.home.isSome then s.evict x k else s
    let s := (s.powerCore c).makeRoom c n 256
    let s := s.modLcore x k fun l => { l with home := some c, shelves := (s.unusedShelves c).take n }
    if first then s else s.bumpFw x 5 n

/-! ## Placement and restore (R362, R363, R369) -/

/-- Bind the indexes of a saved kernel's AMASK to the arrays that a core presents: its own where that is presented, else the lowest
not yet bound (R369). -/
def bindArrays (amask : BitVec 8) (pres : List Nat) : Tab Nat :=
  let want := (List.range 8).filter fun a => amask.getLsbD a
  let own := want.filter fun a => a ∈ pres
  let rest := want.filter fun a => a ∉ pres
  let free := pres.filter fun a => a ∉ own
  (own.map fun a => (a, a)).foldl (fun t e => Tab.ins t e.1 e.2) ((rest.zip free).foldl (fun t e => Tab.ins t e.1 e.2) [])

/-- Restore the saved engines of a logical core on its core, or give it an idle core. -/
def State.restoreOn (s : State) (x k c : Nat) : State :=
  let e := match (s.lcore x k).saved with
    | some e => { e with owner := some (x, k), deadTicks := 0, ibuf := [], tlb := [], bind := bindArrays e.amask (s.presented c (s.ctx x).width) }
    | none => { owner := some (x, k) }
  ((s.powerCore c).modCore c fun _ => e).modLcore x k fun l => { l with saved := none }

/-- The start of one kernel on one core (R235). -/
def KRun.coreStart (r : KRun) (x k cores w : Nat) (amask : BitVec 8) : CoreSt :=
  let regs := (r.args.zipIdx.map fun a => (a.2 + 1, a.1)) ++
    [(9, BitVec.ofNat 64 k), (10, BitVec.ofNat 64 cores), (11, BitVec.ofNat 64 r.image), (12, BitVec.ofNat 64 r.rodataDst)]
  { owner := some (x, k), running := true, regs := regs.foldl (fun t e => Tab.put t 0 e.1 e.2) [], pc := r.entry, codeLen := r.codeLen
    handle := r.handle, karg := BitVec.ofNat 64 r.karg, coreCount := cores, amask, awidth := w, drawKey := r.drawKey
    bind := bindArrays amask (bitsOf 8 amask.toNat) }

/-- Start a kernel on every core of its context: the constant data is copied, and each core starts in the state of R235 (R234). -/
def State.startKernel (s : State) (x : Nat) (r : KRun) : State :=
  let cx := s.ctx x
  let q := if r.rodataLen = 0 then (s, [], false) else
    (s.vread x (some r.handle) {} (r.image + r.rodataOff) r.rodataLen).getD (s, [], false)
  let s := cx.placed.zipIdx.foldl (fun s e =>
    let am : BitVec 8 := BitVec.ofNat 8 (ofBits (s.presented e.1 cx.width))
    let s := s.modCore e.1 fun _ => r.coreStart x e.2 cx.req.cores cx.width am
    if q.2.1.isEmpty then s else s.remoteWrite x e.2 r.rodataDst q.2.1 q.2.2) q.1
  let amin := (cx.placed.map fun c => (s.presented c cx.width).length).foldl min 8
  s.modKernel x r.handle fun k => { k with started := true, amin }

/-- Free the cores of a context (R360, R379). -/
def State.freeCores (s : State) (x : Nat) : State :=
  let s := s.modGov fun g => { g with ranGroups := (s.ctx x).placed.foldl (fun l c => addNew (c / 4) l) g.ranGroups }
  ((s.ctx x).placed.foldl (fun s c => s.modCore c fun _ => {}) s).modCtx x fun cx => { cx with placed := [], lastRun := s.turn.count }

/-- An operation that waits to be resent is saved as unsent (R405). -/
def RemoteOp.unsend (o : RemoteOp) : RemoteOp := if o.waiting then { o with waiting := false, sent := false } else o

/-- Take a running context off its cores (R365): engines stop and are saved, and the gather buffers are written back. A
core on which the kernel has ended keeps what its end still needs. What is saved is held as values (R124, R366; log entry 122). -/
def State.takeOff (s : State) (x : Nat) : State :=
  let begun := ((s.ctx x).kernels.head?).any fun r => r.started
  let s := (s.ctx x).placed.zipIdx.foldl (fun s e =>
    let s := s.writeBackAll e.1
    let k := s.core e.1
    if begun then s.modLcore x e.2 fun l => { l with saved := some { k with owner := none, gather := [], remotes := k.remotes.map RemoteOp.unsend } } else s) s
  ((s.freeCores x).modCtx x fun cx => { cx with st := .waiting, waitStart := s.turn.count }).bumpFw x 2 1

/-- Start the first kernel of a placed context once its spills are finished (R361, R374). A context whose cores no longer qualify at this step
boundary is taken off to be placed anew (R93, R186). -/
def State.tryStart (s : State) (x : Nat) : State :=
  let cx := s.ctx x
  match cx.kernels with
  | [] => s
  | r :: _ =>
    if cx.st == .running && !r.started && r.spills.isEmpty && !r.stopped then
      (if cx.placed.all fun c => s.qualifies cx.req cx.width c && !s.underTest c then s.startKernel x r else s.takeOff x)
    else s

/-- Place a waiting context on its core set (R362, R369). -/
def State.placeCtx (s : State) (x : Nat) (cores : List Nat) : State :=
  let s := cores.zipIdx.foldl (fun s e => (s.settleShelves x e.2 e.1 false).restoreOn x e.2 e.1) s
  let s := s.modCtx x fun cx => { cx with st := .running, ran := true, placed := cores, runStart := s.turn.count, lastRun := s.turn.count }
  (s.bumpFw x 1 1).tryStart x

/-- The last kernel of a running context has ended, or has been discarded: it is idle, and its cores are free (R363). -/
def State.settleCtx (s : State) (x : Nat) : State :=
  let s := s.reportNarrow
  let cx := s.ctx x
  if cx.kernels.isEmpty then
    (if cx.st == .running || cx.st == .waiting then
      (s.freeCores x).modCtx x fun cx => { cx with st := .idle, lcores := cx.lcores.map fun l => (l.1, { l.2 with saved := none }) }
     else s)
  else s.tryStart x

/-! ## Memory key slots (R513) -/

/-- Assign a memory key slot to a holder; none where all 127 are in use, which is reported. -/
def State.takeSlot (s : State) (kind holder : Nat) : State × Option Nat :=
  match Tab.freeFrom s.sec.mslots 127 1 with
  | some n => ({ s with sec := { s.sec with mslots := Tab.ins s.sec.mslots n (kind, holder) } }, some n)
  | none => (s.raise { code := 0x0D03, ctx := if kind = 2 then none else some holder, unit := 12 }, none)

/-- Release a memory key slot. -/
def State.dropSlot (s : State) (n : Nat) : State :=
  if n = 0 then s else { s with sec := { s.sec with mslots := Tab.del s.sec.mslots n } }

/-! ## Scrub records (R524) -/

/-- Bytes 0x000 to 0x07F of a scrub record. -/
def ScrubRec.head (r : ScrubRec) : Bytes :=
  toLe 8 r.recno ++ toLe 8 r.turn.toNat ++ toLe 1 r.kind ++ toLe 1 r.ctx ++ toLe 1 r.func ++ toLe 1 r.slot ++ toLe 4 r.sflags ++
    toLe 8 r.pages.length ++ toLe 8 r.shelves ++ toLe 8 r.handle.toNat ++
    digestBytes (sha512 ((sortBy id r.pages).flatMap fun p => toLe 8 (p * Config.page))) ++ List.replicate 16 0

/-- Append a scrub record and raise SCRUB_DONE (R524, R525). -/
def State.appendScrub (s : State) (kind x func slot sflags : Nat) (pages : List Nat) (shelves : Nat) (h : Word) : State :=
  let r : ScrubRec := { recno := s.sec.scrubNo, turn := s.turn.count, kind, ctx := x, func, slot, sflags, pages, shelves, handle := h, ak := s.sec.akGen }
  let s : State := { s with sec := { s.sec with scrubs := (s.sec.scrubs ++ [r]).drop (s.sec.scrubs.length + 1 - 1024), scrubNo := s.sec.scrubNo + 1 } }
  s.raise { code := 0x0D04, ctx := if kind = 5 then none else some x, handle := if h = 0 then none else some h, unit := 12
            detail := [r.recno, kind] }

end Sys2Proof.Machine
end

