-- ==== Sys2Proof/Machine/Folios.lean ====
section
/-! DEFINITION. Sequences and their folios (R300 to R305, R371 to R374) and the integrity tags of protected contexts (R516, R517). -/

namespace Sys2Proof.Machine

/-! ## Integrity tags (R516) -/

/-- The steps of the product of R516. -/
def gf64Loop : Nat → BitVec 64 → BitVec 64 → BitVec 64 → BitVec 64
  | 0, _, _, p => p
  | n + 1, a, b, p =>
    let p := if b.getLsbD 0 then p ^^^ a else p
    let a' := if a.getLsbD 63 then (a <<< 1) ^^^ 0x1B#64 else a <<< 1
    gf64Loop n a' (b >>> 1) p

/-- Product in GF(2^64) with polynomial x^64 + x^4 + x^3 + x + 1 (R516). -/
def gf64Mul (a b : BitVec 64) : BitVec 64 := gf64Loop 64 a b 0

/-- The number under which the folio keys of a context are kept: they are made anew when it is opened (R509, R523). -/
def State.folioKeyNo (s : State) (x : Nat) : Nat := x * 2 ^ 64 + (s.ctx x).ledger.openTurn.toNat

/-- The context's hash key as a word. -/
def State.hashKey (s : State) (x : Nat) : Word := BitVec.ofNat 64 (leAt (Config.secretKey 1 (s.folioKeyNo x)) 0 8)

/-- The pad of a folio (R516). -/
def State.pad (s : State) (x alloc filled : Nat) : Word :=
  (Config.aes256 (Config.secretKey 2 (s.folioKeyNo x)) (BitVec.ofNat 128 (filled % 2 ^ 16 * 2 ^ 64 + alloc % 2 ^ 64))).truncate 64

/-- Extend a raw tag over 8-byte words (R516). -/
def extendTag (h tag : Word) (w : List Word) : Word := w.foldl (fun t v => gf64Mul (t ^^^ v) h) tag

/-- The 8-byte words of a byte string. -/
def wordsOf (b : Bytes) : List Word := (List.range (b.length / 8)).map fun i => BitVec.ofNat 64 (leAt b (8 * i) 8)

/-- A folio's tag after rows have been appended (R516). -/
def State.newTag (s : State) (x : Nat) (f : Folio) (rows : Bytes) (filled : Nat) : Word :=
  extendTag (s.hashKey x) (f.integrity ^^^ s.pad x f.alloc f.filled) (wordsOf rows) ^^^ s.pad x f.alloc filled

/-- Does a folio's tag agree with its first FILLED rows (R517)? -/
def State.tagOk (s : State) (x : Nat) (f : Folio) (rows : Bytes) : Bool :=
  extendTag (s.hashKey x) 0 (wordsOf rows) ^^^ s.pad x f.alloc f.filled == f.integrity

/-- Is a context protected? -/
def Ctx.protected (cx : Ctx) : Bool := cx.req.modes.testBit 1

/-! ## Geometry (R300) -/

/-- The keys of folio f of every stream of a sequence. -/
def Manifest.folioKeys (m : Manifest) (f : Nat) : List Nat :=
  (List.range m.layers).flatMap fun l => (List.range m.kvHeads).flatMap fun h => [folioKey l h 0 f, folioKey l h 1 f]

/-- Folio numbers that hold the positions L to L + a - 1. -/
def folioSpan (t len a : Nat) : List Nat :=
  if a = 0 then [] else (List.range ((len + a - 1) / t - len / t + 1)).map fun i => len / t + i

/-- The folios that an append lacks (R302). -/
def Seq.missing (q : Seq) (m : Manifest) (a : Nat) : List Nat :=
  ((folioSpan m.folioRows q.len a).flatMap m.folioKeys).filter fun k => (Tab.opt q.cat k).isNone

/-- The manifest of a sequence's pinned generation. -/
def State.seqManifest (s : State) (x : Nat) (q : Seq) : Option Manifest := (s.genBody x q.gen).bind fun b => b.manifest

/-- The virtual address of a pool folio. -/
def folioVa (n : Nat) : Nat := poolBase + 65536 * n

/-- Change a folio of a sequence. -/
def Ctx.modFolio (cx : Ctx) (sid key : Nat) (f : Folio → Folio) : Ctx :=
  { cx with seqs := Tab.change cx.seqs sid fun q => { q with cat := Tab.change q.cat key f } }

/-! ## Spilling (R372 to R374) -/

/-- Is a copy of a sequence's folios to the spill region, or back, under way? -/
def Ctx.spillBusy (cx : Ctx) (sid : Nat) : Bool := cx.kernels.any fun r => sid ∈ r.spills

/-- Does a STEP released and not completed name a sequence (R295, R373)? -/
def Ctx.inStep (cx : Ctx) (sid : Nat) : Bool := cx.kernels.any fun r => r.entries.any fun e => e.sid == sid

/-- Resident folios of a sequence. -/
def Seq.resident (q : Seq) : List (Nat × Folio) := q.cat.filter fun e => !e.2.spilled

/-- Spilled folios of a sequence. -/
def Seq.spilledOnes (q : Seq) : List (Nat × Folio) := q.cat.filter fun e => e.2.spilled

/-- Folios of some functions that are spilled or are being spilled. -/
def State.spilledOf (s : State) (p : Nat → Bool) (pending : List Nat) (x : Nat) : Nat :=
  ((s.ctxs.filter fun e => p e.2.req.func).map fun e =>
    (e.2.seqs.map fun q => if (e.1 == x && q.1 ∈ pending) || (e.2.spillBusy q.1 && !e.2.inStep q.1) then q.2.cat.length
      else q.2.spilledOnes.length).sum).sum

/-- Folios that the spill region holds. -/
def State.regionFolios (s : State) : Nat := (s.net.spillRegion.map fun e => e.2 / 65536).sum

/-- The host address of a place in the spill region. -/
def State.regionAddr (s : State) (n : Nat) : Nat :=
  (s.net.spillRegion.foldl (fun (a : Nat × Option Nat) e =>
    match a.2 with
    | some _ => a
    | none => if a.1 < e.2 / 65536 then (a.1, some (e.1 + 65536 * a.1)) else (a.1 - e.2 / 65536, none)) (n, none)).2.getD 0

/-- Places of the spill region in use. -/
def State.regionUsed (s : State) : List Nat :=
  s.ctxs.flatMap fun e => e.2.seqs.flatMap fun q => (q.2.spilledOnes).map fun f => f.2.spillAt

/-- The sequences that may be spilled, in order (R373). -/
def Ctx.spillOrder (cx : Ctx) (named pending : List Nat) : List Nat :=
  let ok := cx.seqs.filter fun q => q.1 ∉ named && q.1 ∉ pending && !cx.inStep q.1 && !cx.spillBusy q.1 && !(q.2.resident).isEmpty
  (sortBy (fun (q : Nat × Seq) => q.2.lastStep.toNat * 2 ^ 32 + q.1) ok).map fun q => q.1

/-- The result of making room in a pool: the free folios, and the sequences to be spilled. -/
structure Room where
  free   : List Nat
  spills : List Nat
  deriving DecidableEq, Repr

/-- Spill sequences until `need` folios are free, or no more may be spilled (R373). -/
def State.makeFolios (s : State) (x : Nat) (named : List Nat) (need : Nat) : Nat → Room → Room
  | 0, r => r
  | n + 1, r =>
    if need ≤ r.free.length then r
    else
      let cx := s.ctx x
      match cx.spillOrder named r.spills with
      | [] => r
      | v :: _ =>
        let res := ((Tab.opt cx.seqs v).map fun q => q.resident).getD []
        let after : (Nat → Bool) → Nat := fun p => s.spilledOf p r.spills x + res.length
        if (s.func cx.req.func).spillQuota < 65536 * after (· == cx.req.func) || s.regionFolios < after (fun _ => true) then r
        else s.makeFolios x named need n { free := r.free ++ res.map (fun f => f.2.place), spills := r.spills ++ [v] }

/-! ## Allocation at the release of a STEP (R302) -/

/-- Give a sequence its folios: spilled ones get a pool folio to return to, missing ones are made (R302, R374). -/
def State.giveFolios (s : State) (x sid : Nat) (back miss : List Nat) (free places : List Nat) : State :=
  let cx := s.ctx x
  let prot := cx.protected
  let old := (back.zip free).foldl (fun (c : Ctx) e => c.modFolio sid e.1 fun f => { f with place := e.2 }) cx
  let new := (miss.zip (free.drop back.length)).zipIdx.foldl (fun (c : Ctx) e =>
    let alloc := cx.allocNo + e.2
    let f : Folio := { base := folioVa e.1.2, place := e.1.2, entryAt := places.getD e.2 0, alloc, integrity := if prot then s.pad x alloc 0 else 0 }
    { c with seqs := Tab.change c.seqs sid fun q => { q with cat := Tab.ins q.cat e.1.1 f } }) old
  let used := free.take (back.length + miss.length)
  { s with ctxs := Tab.put s.ctxs {} x { new with allocNo := cx.allocNo + miss.length
                                                  freeFolios := new.freeFolios.filter fun n => n ∉ used } }

/-- Allocate for one entry of a STEP; the entry, and the spills it has caused (R302). -/
def State.allocEntry (s : State) (x : Nat) (named : List Nat) (spills : List Nat) (e : StepEntry) : State × StepEntry × List Nat :=
  match Tab.opt (s.ctx x).seqs e.sid with
  | none => (s, e, spills)
  | some q =>
    match s.seqManifest x q with
    | none => (s, e, spills)
    | some m =>
      let back := (q.spilledOnes).map fun f => f.1
      let miss := q.missing m e.append
      let need := back.length + miss.length
      let r := s.makeFolios x named need ((s.ctx x).seqs.length + 1) { free := (s.ctx x).freeFolios, spills }
      let grown := s.growCatalogue x miss.length
      match if r.free.length < need then none else grown with
      | none => (s, { e with failed := some 0x0D }, spills)
      | some (s, places) =>
        let s := s.modCtx x fun cx => { cx with freeFolios := r.free }
        let s := (s.giveFolios x e.sid back miss r.free places).bumpFw x 8 miss.length
        (s, { e with fresh := miss }, if back.isEmpty then r.spills else r.spills ++ [e.sid])

/-- Allocate for every entry in list order. -/
def State.allocEntries (s : State) (x : Nat) (l : List StepEntry) : State × List StepEntry × List Nat :=
  let named := l.map fun e => e.sid
  l.foldl (fun a e =>
    let r := a.1.allocEntry x named a.2.2 e
    (r.1, a.2.1 ++ [r.2.1], r.2.2)) (s, [], [])

/-- Take folios out of a sequence's catalogue; resident ones go back to the pool. -/
def State.dropFolios (s : State) (x sid : Nat) (keys : List Nat) : State :=
  s.modCtx x fun cx =>
    match Tab.opt cx.seqs sid with
    | none => cx
    | some q =>
      let gone := q.cat.filter fun e => e.1 ∈ keys
      { cx with seqs := Tab.change cx.seqs sid fun q => { q with cat := q.cat.filter fun e => e.1 ∉ keys }
                freeFolios := sortBy id (cx.freeFolios ++ (gone.filter fun e => !e.2.spilled).map fun e => e.2.place) }

/-! ## The end of a spill copy or a return (R374) -/

/-- Take a sequence off the lists of copies that kernels wait for, and start what can start. -/
def State.spillOver (s : State) (x sid : Nat) : State :=
  (s.modCtx x fun cx => { cx with kernels := cx.kernels.map fun r => { r with spills := r.spills.filter (· != sid) } }).tryStart x

/-- Copy one folio to the spill region. -/
def State.spillFolio (s : State) (x sid key : Nat) (f : Folio) : State :=
  let used := s.regionUsed
  let n := ((List.range (used.length + 1)).find? fun i => i ∉ used).getD used.length
  let r := (s.vread x none {} (folioVa f.place) 65536).getD (s, List.replicate 65536 0, true)
  let prot := (s.ctx x).protected
  let data := if prot then (List.range 65536).map fun i => Config.freeByte (r.1.fresh + i) else r.2.1
  let s : State := if prot then { r.1 with fresh := r.1.fresh + 65536 } else r.1
  let s := s.hostWrite 0 (s.regionAddr n) data true
  (s.modCtx x fun cx => cx.modFolio sid key fun g => { g with spilled := true, spillAt := n }).bumpFw x 6 65536 |>.bumpFw x 9 1

/-- SPILL_COPY_DONE (R374): every resident folio of the sequence has been copied, and its pool folios may be written. -/
def execSpillCopyDone (x sid : Nat) (s : State) : Host.Outcome State Fault Refusal :=
  when ((s.ctx x).spillBusy sid && !(s.ctx x).inStep sid) s fun s =>
    let l := ((Tab.opt (s.ctx x).seqs sid).map fun q => q.resident).getD []
    (l.foldl (fun s e => s.spillFolio x sid e.1 e.2) s).spillOver x sid

/-- Put one returned folio in its pool folio: a copy that could not be read comes back poisoned, and a tag that disagrees marks the
folio POISONED (R374, R517). -/
def State.returnFolio (s : State) (x sid key : Nat) (d : Option Bytes) : State :=
  match (Tab.opt (s.ctx x).seqs sid).bind fun q => Tab.opt q.cat key with
  | none => s
  | some f =>
    let va := folioVa f.place
    let s := match d with
      | some b => (s.vwrite x none {} va (fitTo 65536 b) false).getD s
      | none => s.vpoison x none {} va 65536
    let rows := ((Tab.opt (s.ctx x).seqs sid).bind fun q => s.seqManifest x q).map fun m => m.rowBytes
    let bad := match d with
      | some b => (s.ctx x).protected && !s.tagOk x f ((fitTo 65536 b).take (f.filled * rows.getD 1))
      | none => true
    (s.modCtx x fun cx => cx.modFolio sid key fun g => { g with spilled := false, base := va, poisoned := g.poisoned || bad }).bumpFw x 7 65536 |>.bumpFw x 10 1

/-- Are copies of sequences that give up their pool folios for the same STEP still to be written (R374)? -/
def Ctx.copiesDue (cx : Ctx) (sid : Nat) : Bool := cx.kernels.any fun r => sid ∈ r.spills && r.spills.any fun t => !cx.inStep t

/-- SPILL_RETURN_DONE (R374, R517): the sequence's spilled folios are back in the pool. -/
def execSpillReturnDone (x sid : Nat) (folios : List (Nat × Option Bytes)) (s : State) : Host.Outcome State Fault Refusal :=
  when ((s.ctx x).spillBusy sid && (s.ctx x).inStep sid && !(s.ctx x).copiesDue sid) s fun s =>
    let keys := ((Tab.opt (s.ctx x).seqs sid).map fun q => (q.spilledOnes).map fun e => e.1).getD []
    (keys.foldl (fun s k => s.returnFolio x sid k ((folios.find? fun e => e.1 == k).bind fun e => e.2)) s).spillOver x sid

end Sys2Proof.Machine
end

