-- ==== Sys2Proof/Machine/Steps.lean ====
section
/-! DEFINITION. Kernel commands: the checks and the allocation at the release of STEP and LAUNCH (R234, R294, R302, R343, R361), and their
end (R29, R237, R304, R305, R349 to R352, R527). -/

namespace Sys2Proof.Machine

/-! ## The kernel image (R233, R234) -/

/-- The first row of R234: the header's constants, reserved fields, offsets and lengths. -/
def imageHeaderOk (shelves : Nat) (b : Bytes) : Bool :=
  let co := leAt b 0x0C 4
  let cl := leAt b 0x10 4
  let en := leAt b 0x14 4
  let ro := leAt b 0x20 4
  let rl := leAt b 0x24 4
  let rd := leAt b 0x28 4
  leAt b 0 4 == 0x4C4E4B5A && leAt b 8 4 == 0 && co % 64 == 0 && cl % 8 == 0 && 8 ≤ cl && cl ≤ 1048576 && en % 8 == 0 && en < cl &&
    1 ≤ leAt b 0x18 4 && leAt b 0x18 4 ≤ 192 && (leAt b 0x1C 1 == 0 || (56 ≤ leAt b 0x1C 1 && leAt b 0x1C 1 ≤ 64)) && leAt b 0x1D 1 ≤ 8 &&
    leAt b 0x1E 2 == 0 && ro % 64 == 0 && rl ≤ 65536 && (ro != 0 || rl == 0) && rd / 2 ^ 24 == 0 && rd % 512 == 0 &&
    (rl == 0 || rd + rl ≤ shelves * 65536) && allZero (sliceAt b 0x2C 20)

/-- The checks of R234 on the image that a kernel command names: the failing status, or the header and the digest of R533. -/
def State.checkImage (s : State) (x img : Nat) : Nat ⊕ (Bytes × Digest) :=
  let cx := s.ctx x
  match if img % 4096 = 0 then s.vpeek x img 64 else none with
  | none => .inl 0x02
  | some b =>
    let code := s.vpeek x (img + leAt b 0x0C 4) (leAt b 0x10 4)
    let ro := s.vpeek x (img + leAt b 0x20 4) (leAt b 0x24 4)
    if !imageHeaderOk cx.req.shelves b then .inl 0x02
    else match code, ro with
      | some code, some ro =>
        if leAt b 4 2 != 1 || Config.isaMinor < leAt b 6 2 then .inl 0x0E
        else if cx.req.shelves < leAt b 0x18 4 then .inl 0x02
        else if cx.width < leAt b 0x1C 1 then .inl 0x07
        else .inr (b, sha512 (b ++ code ++ ro))
      | _, _ => .inl 0x02

/-- The effects of reading the image that a kernel command names: its header, its code and its constant data (R234, R245). -/
def State.touchImage (s : State) (x : Nat) (h : Word) (img : Nat) : State :=
  if img % 4096 != 0 then s
  else
    let s := s.touch x (some h) {} img 64
    match s.vpeek x img 64 with
    | none => s
    | some b => (s.touch x (some h) {} (img + leAt b 0x0C 4) (leAt b 0x10 4)).touch x (some h) {} (img + leAt b 0x20 4) (leAt b 0x24 4)

/-- The kernel run of a command with a good image, its argument words read. -/
def kernelRun (m : Cmd) (b args : Bytes) (img : Digest) (gov : Nat) : KRun :=
  let step := m.op == 0x30
  { handle := m.handle, isStep := step, image := leAt m.body 0 8, karg := leAt m.body 8 8
    drawKey := BitVec.ofNat 128 (leAt m.body 0x10 16), codeOff := leAt b 0x0C 4, codeLen := leAt b 0x10 4, entry := leAt b 0x14 4
    rodataOff := leAt b 0x20 4, rodataLen := leAt b 0x24 4, rodataDst := leAt b 0x28 4
    args := (List.range 8).map fun i => if i < leAt b 0x1D 1 then BitVec.ofNat 64 (leAt args (8 * i) 8) else 0
    gen := if step then leAt m.body 0x2A 2 else 0, out := if step then leAt m.body 0x30 8 else 0
    result := if step then leAt m.body 0x38 8 else 0, imageDigest := img, argDigest := sha512 args, govAtRel := gov }

/-! ## The list of a STEP (R294, R343) -/

/-- The entries of a STEP's list. -/
def listEntries (b : Bytes) (n : Nat) : List StepEntry :=
  (List.range n).map fun i => { sid := leAt b (8 * i) 4, append := leAt b (8 * i + 4) 2 }

/-- Is every table of a generation expanded at use in its slot (R294)? -/
def State.tablesSet (s : State) (x : Nat) (b : GenBody) : Bool :=
  !b.atUse || ((b.manifest.map fun m => m.tables).getD []).all fun t => Tab.opt (s.ctx x).slots t.1 == some t.2

/-- The state of the STEP of a command before its release (R280, R281, R291): must it be held? -/
def State.stepHeld (s : State) (x : Nat) (m : Cmd) : Bool :=
  let n := leAt m.body 0x28 2
  let list := (s.vpeek x (leAt m.body 0x20 8) (8 * n)).getD []
  ((s.genBody x (leAt m.body 0x2A 2)).any fun b => b.st == .verifying || b.st == .held) ||
    (listEntries list n).any fun e => (s.ctx x).spillBusy e.sid && !(s.ctx x).inStep e.sid

/-! ## The ledger records of a STEP (R527, R531, R533) -/

/-- The OUT row of a part as it stands, if it reads without poison. -/
def State.outRow (s : State) (x out i : Nat) : Option Bytes :=
  match s.peekDesc x out with
  | none => none
  | some d => s.vpeek x (d.rowVa i) (rowLen d.fmt d.cols)

/-- Does the OUT row of a part hold poison (R351)? -/
def State.outPoisoned (s : State) (x out i : Nat) : Bool :=
  match s.peekDesc x out with
  | none => false
  | some d => match s.translateAll x .read false (d.rowVa i) (rowLen d.fmt d.cols) with
    | none => false
    | some l => l.any fun p => (s.readCw p.2.2 p.1).2.1

/-- Append the record of one entry. -/
def State.stepRecord (s : State) (x : Nat) (m : Cmd) (r : KRun) (early : Bool) (fails : List (Nat × Nat)) (i : Nat) (e : StepEntry) : State :=
  let fail := (fails.find? fun f => f.1 == i).map fun f => f.2
  let atRel := early || e.failed.isSome
  let key := ((Tab.opt (s.ctx x).seqs e.sid).map fun q => q.key).getD 0
  let dig := match fail with
    | some _ => List.replicate 16 0
    | none => match s.outRow x r.out i with
      | some b => (digestBytes (sha512 b)).take 16
      | none => List.replicate 16 0
  let body := toLe 4 e.sid ++ toLe 2 r.gen ++ toLe 2 0 ++ toLe 8 (if atRel then 2 ^ 64 - 1 else e.len) ++
    toLe 4 (if atRel then 0 else e.append) ++ toLe 4 0 ++ toLe 8 m.turnRel.toNat ++ s.keyField x r.drawKey ++ s.keyField x key ++
    (digestBytes r.imageDigest).take 32 ++ (digestBytes r.argDigest).take 32 ++ dig
  s.appendRec x { kind := 0x01, handle := some m.handle, gen := some r.gen, rflags := lateFlag m.late + s.keysHashed x + m.acc % 16
                  status := fail.getD 0, amin := r.amin, gov := r.govAtRel, body }

/-! ## The end of a STEP (R304, R305, R516) -/

/-- The descriptor that fixes a folio: of the latest walk over its first position on the lowest logical core that has one (R304). -/
def State.walkDesc (s : State) (x : Nat) (sid key : Nat) : Option Bytes :=
  (List.range (s.ctx x).req.cores).findSome? fun k =>
    ((s.eng x k).walks.filter fun w => w.1 == sid && folioKey w.2.1 w.2.2.1 w.2.2.2.1 w.2.2.2.2.1 == key).getLast?.map fun w =>
      Tab.span (s.lcore x k).rows 0 w.2.2.2.2.2 32

/-- Fix the scale and zero point of one folio; answered whether they keep R58. -/
def State.fixFolio (s : State) (x sid key : Nat) (m : Manifest) : State × Bool :=
  match Tab.opt (s.ctx x).seqs sid with
  | none => (s, true)
  | some q =>
    let v := match s.walkDesc x sid key with
      | some b => (BitVec.ofNat 32 (leAt b 0x14 4), leAt b 0x1A 1)
      | none => q.proposed m (key / 65536 / 512) (key / 65536 / 2 % 256) (key / 65536 % 2) (key % 65536)
    (s.modCtx x fun cx => cx.modFolio sid key fun f => { f with scale := v.1, zp := v.2, fixed := true }, scaleOk m.kvFmt v.1 v.2)

/-- The rows that an entry has appended to folio f: first and end (R305). -/
def filledRange (t len a f : Nat) : Nat × Nat := (max len (f * t) - f * t, min (len + a) ((f + 1) * t) - f * t)

/-- The length and FILLED counts after a part that succeeded, and the tags of a protected context (R305, R516). -/
def State.commitEntry (s : State) (x : Nat) (m : Manifest) (e : StepEntry) : State :=
  let t := m.folioRows
  let s := (folioSpan t e.len e.append).foldl (fun s f =>
    let r := filledRange t e.len e.append f
    (m.folioKeys f).foldl (fun s k =>
      match (Tab.opt (s.ctx x).seqs e.sid).bind fun q => Tab.opt q.cat k with
      | none => s
      | some g =>
        let s := if (s.ctx x).protected then s.touch x none {} (folioVa g.place + r.1 * m.rowBytes) ((r.2 - r.1) * m.rowBytes) else s
        let tag := if (s.ctx x).protected then
          s.newTag x g ((s.vpeek x (folioVa g.place + r.1 * m.rowBytes) ((r.2 - r.1) * m.rowBytes)).getD []) r.2 else 0
        s.modCtx x fun cx => cx.modFolio e.sid k fun g => { g with filled := r.2, integrity := tag }) s) s
  s.modCtx x fun cx => { cx with seqs := Tab.change cx.seqs e.sid fun q => { q with len := e.len + e.append } }

/-- Fix the folios of an entry (R304); a value that breaks R58 fails its part. -/
def State.fixEntry (s : State) (x : Nat) (h : Word) (m : Manifest) (i : Nat) (e : StepEntry) : State :=
  let r := e.fresh.foldl (fun (a : State × Bool) k =>
    let q := a.1.fixFolio x e.sid k m
    (q.1, a.2 && q.2)) (s, true)
  if r.2 then r.1 else r.1.modCmd h fun c => if c.whole.isSome then c else c.failPart i 0x02

/-- The failures of a command as they stand. -/
def State.failuresOf (s : State) (h : Word) : List (Nat × Nat) := ((s.cmd h).map fun m => m.failures).getD []

/-- What is written for an entry that failed in a STEP that completes as PARTIAL is not counted: its row of OUT, and the folios of its
sequence (R71). -/
def State.dropStats (s : State) (x : Nat) (h : Word) (e : StepEntry) : State :=
  let l := ((Tab.opt (s.ctx x).seqs e.sid).map fun q => q.resident.map fun f => f.2.base).getD []
  s.modCmd h fun m => if m.finalStatus != 1 then m else
    { m with rowStats := m.rowStats.filter fun w => !(l.any fun b => b ≤ w.1 && w.1 < b + 0x10000) }

/-- Keep or undo the append of an entry (R305). -/
def State.endEntry (s : State) (x : Nat) (h : Word) (m : Manifest) (i : Nat) (e : StepEntry) : State :=
  if (s.failuresOf h).any fun f => f.1 == i then (s.dropStats x h e).dropFolios x e.sid e.fresh else s.commitEntry x m e

/-- Read the OUT row of a part: one that holds poison fails (R351). -/
def State.checkOut (s : State) (x : Nat) (h : Word) (out i : Nat) : State :=
  let s := match s.peekDesc x out with
    | none => s
    | some d => s.touch x (some h) {} (d.rowVa i) (rowLen d.fmt d.cols)
  if s.outPoisoned x out i then s.modCmd h fun c => if c.whole.isSome then c else c.failPart i 0x06 else s

/-- Poison what the failed parts of a command leave, and fail the parts that share its codewords (R351). -/
def State.poisonParts (s : State) (h : Word) : State :=
  match s.cmd h with
  | none => s
  | some m =>
    let q := s.poisonDest m
    q.1.modCmd h fun _ => q.2

/-- Complete a STEP that passed the pin check: parts with poisoned OUT rows fail, folios are fixed, what failed is poisoned, appends are kept
or undone, RESULT is written, the ledger records are appended, and the command completes (R29, R302, R304, R305, R349 to R352). `early`: it
failed as a whole at its release. -/
def State.finishStep (s : State) (x : Nat) (r : KRun) (early : Bool) : State :=
  match s.cmd r.handle with
  | none => s
  | some _ =>
    let h := r.handle
    let s := if !r.started then s else r.entries.zipIdx.foldl (fun s e => s.checkOut x h r.out e.2) s
    let live := if early then [] else r.entries.zipIdx.filter fun e => e.1.failed.isNone
    let s : State := match (s.genBody x r.gen).bind fun b => b.manifest with
      | none => s.poisonParts h
      | some m =>
        let t := (live.foldl (fun (s : State) e => s.fixEntry x h m e.2 e.1) s).poisonParts h
        live.foldl (fun (s : State) e => s.endEntry x h m e.2 e.1) t
    let f := s.failuresOf h
    let status : Nat → Nat := fun i => ((f.find? fun g => g.1 == i).map fun g => g.2).getD 0
    let s := if r.result = 0 then s else
      (s.vwrite x (some h) {} r.result ((List.range r.entries.length).map fun i => BitVec.ofNat 8 (status i)) false).getD s
    let s := r.entries.zipIdx.foldl (fun s e => match s.cmd h with
      | none => s
      | some m => s.stepRecord x m r early f e.2 e.1) s
    s.okCmd h (BitVec.ofNat 64 (r.entries.length - f.length))

/-- Complete a kernel command whose kernels have ended or will not start. -/
def State.finishKernel (s : State) (x : Nat) (r : KRun) (early : Bool) : State :=
  let s := if r.isStep then s.finishStep x r early else s.finish r.handle
  s.modCtx x fun cx => { cx with kernels := cx.kernels.filter fun k => k.handle != r.handle }

/-! ## Release (R234, R294, R302, R343, R370) -/

/-- The per-entry records in the argument area (R343). -/
def State.kargRecords (s : State) (x : Nat) (l : List StepEntry) : Bytes :=
  l.flatMap fun e =>
    let key := ((Tab.opt (s.ctx x).seqs e.sid).map fun q => q.key).getD 0
    toLe 4 e.sid ++ toLe 4 (if e.failed.isSome then 0 else e.append) ++ toLe 8 (if e.failed.isSome then 2 ^ 64 - 1 else e.len) ++
      toLe 16 key.toNat

/-- A kernel command takes its place in the context (R360, R361). -/
def State.queueKernel (s : State) (x : Nat) (r : KRun) : State :=
  (s.modCtx x fun cx =>
    let k := { cx with kernels := cx.kernels ++ [r] }
    if cx.st == .idle then { k with st := .waiting, waitStart := s.turn.count } else k).tryStart x

/-- Release of a LAUNCH. -/
def State.releaseLaunch (s : State) (x : Nat) (m : Cmd) : State :=
  let s := s.touchImage x m.handle (leAt m.body 0 8)
  match s.checkImage x (leAt m.body 0 8) with
  | .inl st => s.failCmd m.handle st 0x07
  | .inr (b, dig) =>
    match s.vread x (some m.handle) {} (leAt m.body 8 8) 64 with
    | none => s.failCmd m.handle 0x03 0x0A
    | some (s, args, poison) =>
      if poison then s.failCmd m.handle 0x03 0x0A
      else if !s.couldPlace x then s.failCmd m.handle 0x07 0
      else s.queueKernel x (kernelRun m b args dig s.gov.st.code)

/-- The end at release of a STEP that passed the pin check and fails as a whole. -/
def State.failStep (s : State) (x : Nat) (r : KRun) (status detail : Nat) : State :=
  (s.modCmd r.handle fun c => c.failWhole status detail).finishKernel x r true

/-- Release of a STEP, its list read and its pins checked (R280, R294, R302, R343). -/
def State.releasePinned (s : State) (x : Nat) (m : Cmd) (l : List StepEntry) : State :=
  let h := m.handle
  let out := leAt m.body 0x30 8
  let ka := leAt m.body 8 8
  let len : StepEntry → StepEntry := fun e => { e with len := ((Tab.opt (s.ctx x).seqs e.sid).map fun q => q.len).getD 0 }
  let r0 := { kernelRun m [] [] 0 s.gov.st.code with entries := l.map len, argDigest := 0 }
  match s.genBody x r0.gen with
  | none => s.failCmd h 0x02 0x06
  | some g =>
    if g.st != .ready || !((Tab.opt (s.ctx x).gens r0.gen).any fun n => n.loaded) then s.failStep x r0 0x0A 0x06
    else if !s.tablesSet x g then s.failStep x r0 0x09 0x06
    else
     let s := s.touchImage x h (leAt m.body 0 8)
     match s.checkImage x (leAt m.body 0 8) with
      | .inl st => s.failStep x r0 st 0x07
      | .inr (b, dig) =>
        let r1 := { r0 with imageDigest := dig }
        let s := s.touch x (some h) {} out 32
        match s.vpeek x out 32 with
        | none => s.failStep x r1 0x03 0x0A
        | some d =>
          if out % 32 != 0 || !descValid d || (descOf d).rows < l.length then s.failStep x r1 0x02 0x08
          else match s.vread x (some h) {} ka 64 with
            | none => s.failStep x r1 0x03 0x0A
            | some (s, args, poison) =>
              let r2 := { kernelRun m b args dig s.gov.st.code with entries := l.map len }
              if poison || (s.translateAll x .write false (ka + 0x40) (32 * l.length)).isNone then s.failStep x r2 0x03 0x0A
              else if !s.couldPlace x then s.failStep x r2 0x07 0
              else
                let s := s.modCtx x fun cx => { cx with seqs := cx.seqs.map fun q =>
                  if (l.any fun e => e.sid == q.1) then (q.1, { q.2 with lastStep := s.turn.count }) else q }
                let a := s.allocEntries x r2.entries
                let r := { r2 with entries := a.2.1, spills := a.2.2 }
                let s := a.2.1.zipIdx.foldl (fun s e => match e.1.failed with
                  | some st => s.modCmd h fun c => c.failPart e.2 st
                  | none => s) a.1
                let s := (s.vwrite x (some h) {} (ka + 0x40) (s.kargRecords x r.entries) false).getD s
                if (r.entries.all fun e => e.failed.isSome) then s.finishKernel x r false else s.queueKernel x r

/-- Release of a STEP (R294, R343). -/
def State.releaseStep (s : State) (x : Nat) (m : Cmd) : State :=
  let n := leAt m.body 0x28 2
  let g := leAt m.body 0x2A 2
  match s.vread x (some m.handle) {} (leAt m.body 0x20 8) (8 * n) with
  | none => s.failCmd m.handle 0x03 0x0A
  | some (s, b, poison) =>
    let l := listEntries b n
    if poison then s.failCmd m.handle 0x03 0x0A
    else if ((List.range n).any fun i => leAt b (8 * i + 6) 2 != 0) then s.failCmd m.handle 0x02 0x01
    else if (l.map fun e => e.sid).eraseDups.length != n then s.failCmd m.handle 0x02 0x05
    else if !(l.all fun e => (Tab.opt (s.ctx x).seqs e.sid).any fun q => q.gen == g) then s.failCmd m.handle 0x02 0x06
    else s.releasePinned x m l

/-! ## The end of a kernel command -/

/-- Have the kernels of a command ended on every core, each with its operations complete and its gather buffer written back (R237), or been
stopped, with what came before a precise fault complete (R230)? -/
def State.kernelOver (s : State) (x : Nat) (r : KRun) : Bool :=
  (r.stopped && (List.range (s.ctx x).req.cores).all fun k => !(s.eng x k).draining || (s.eng x k).quiet) ||
  (!r.stopped && r.started && (s.ctx x).placed.zipIdx.all fun e =>
    (r.ended.any fun g => g.1 == e.2) || ((s.core e.1).exiting.isSome && (s.core e.1).quiet))

/-- End the kernel on the cores that have reached EXIT. -/
def State.endCores (s : State) (x : Nat) : State :=
  (s.ctx x).placed.foldl (fun s c => match (s.core c).exiting with
    | some code => if (s.core c).quiet then s.endOnCore c code else s
    | none => s) s

/-- KERNEL_COMMAND_END (R29, R237, R304, R305, R349, R363, R527). -/
def execKernelCommandEnd (h : Word) (s : State) : Host.Outcome State Fault Refusal :=
  match s.cmd h with
  | none => idle s
  | some m =>
    match (s.ctx m.target).kernels with
    | [] => idle s
    | r :: _ =>
      when (s.serving && r.handle == h && (m.op == 0x30 || m.op == 0x31) && s.kernelOver m.target r) s fun s =>
        let s := if r.stopped then s.stopKernels m.target else s.endCores m.target
        let r := ((s.ctx m.target).kernel h).getD r
        let s := s.modCmd h fun c => { c with exit := (r.ended.map fun e => e.2).foldl max 0 }
        (s.finishKernel m.target r false).settleCtx m.target

end Sys2Proof.Machine
end

