-- ==== Sys2Proof/Machine/Setup.lean ====
section
/-! DEFINITION. Ring setup (R327, R328, R332, R333), and the checks of a descriptor at fetch (R334, R335, R337, R342). -/

namespace Sys2Proof.Machine

/-! ## Ring setup -/

/-- Vectors of a function's MSI-X table: 2048 of F0, 64 of a virtual function (R311, R353). -/
def vectors (f : Nat) : Nat := if f = 0 then 2048 else 64

/-- May a ring of a function be set up in coherent mode (R312)? -/
def State.coherentOk (s : State) (f : Nat) : Bool := s.host.cache && f ∈ s.host.ats

/-- The highest queue protocol version within a range that the block serves (R333). -/
def agreeVqp (lo hi : Nat) : Option Nat :=
  let v := min hi Config.vqpMax
  if max lo Config.vqpMin ≤ v then some v else none

/-- The outcome of the checks of R332 on a readable header: status and detail, and the agreed version. -/
def State.headerCheck (s : State) (f : Nat) (b : Bytes) : Nat × Nat × Nat :=
  let mode := leAt b 0x1A 1
  let lo := leAt b 0x20 2
  let hi := leAt b 0x22 2
  if !allZero (sliceAt b 0x24 28) then (2, 1, 0)
  else if leAt b 0 8 % 4096 != 0 || leAt b 8 8 % 4096 != 0 || 1 < mode || (mode = 0 && leAt b 0x10 8 % 64 != 0) ||
      (mode = 1 && leAt b 0x10 8 != 0) || leAt b 0x18 1 < 4 || 12 < leAt b 0x18 1 || leAt b 0x19 1 < 4 || 15 < leAt b 0x19 1 ||
      leAt b 0x1B 1 = 0 || leAt b 0x1C 2 = 0 || vectors f ≤ leAt b 0x1C 2 || 1023 < leAt b 0x1E 2 then (2, 5, 0)
  else if mode = 0 && !s.coherentOk f then (2, 5, 0)
  else if hi < lo then (2, 5, 0)
  else match agreeVqp lo hi with
    | none => (0x0E, 0, 0)
    | some v => (0, 0, v)

/-- The ring that a good header sets up, with all counts zero (R330). For a coherent ring the 8 bytes that follow the header in the operand are
the doorbell word that the first read of the line gives (R312). -/
def ringFrom (f v : Nat) (b : Bytes) : Ring :=
  { func := f, sqBase := leAt b 0 8, cqBase := leAt b 8 8, dbAddr := leAt b 0x10 8, sqLog := leAt b 0x18 1, cqLog := leAt b 0x19 1
    mmio := leAt b 0x1A 1 == 1, irqCount := leAt b 0x1B 1, vector := leAt b 0x1C 2, irqTimer := leAt b 0x1E 2, vqp := v
    seen := BitVec.ofNat 64 (leAt b 128 8) }

/-- Write back bytes 0x40 to 0x7F of a header (R327). -/
def State.headerBack (s : State) (f addr status detail v : Nat) : State :=
  s.hostWrite f (addr + 0x40) (toLe 1 status ++ toLe 1 detail ++ toLe 2 v ++ List.replicate 60 0) false

/-- Read a coherent doorbell: its line is held, unless it is being polled, and the value read acts (R312, R313). -/
def State.rereadDoorbell (s : State) (id : RingId) (v : Word) : State :=
  match s.ring id with
  | none => s
  | some r =>
    if r.mmio then s
    else
      let s := s.modRing id fun r => { r with lineHeld := !r.degraded, seen := v }
      let s := if r.degraded then s.hostAsk r.func r.dbAddr 8 false true else (s.noteAts r.func r.dbAddr).emit (.rdShared id)
      s.doorbell id v

/-- Put a ring in service; a coherent one has its doorbell line read, and acts on the value (R312). -/
def State.installRing (s : State) (id : RingId) (r : Ring) : State :=
  ({ s with rings := Tab.ins s.rings (ringKey id) r } : State).rereadDoorbell id r.seen

/-- The outcome of one header of OPEN_CONTEXT: ring number, status, detail and version, and the header where it was readable. -/
structure HeaderOutcome where
  ring   : Nat
  status : Nat
  detail : Nat
  vqp    : Nat
  hdr    : Option Bytes
  deriving DecidableEq, Repr

/-- The checks of the headers of a ring mask, in ascending ring number (R332). -/
def State.headersCheck (s : State) (f mask : Nat) (hdrs : List (Option Bytes)) : List HeaderOutcome :=
  ((bitsOf 16 mask).zipIdx).map fun e =>
    match (hdrs[e.2]?).join with
    | none => { ring := e.1, status := 3, detail := 0, vqp := 0, hdr := none }
    | some b =>
      let c := s.headerCheck f (fitTo 128 b)
      { ring := e.1, status := c.1, detail := c.2.1, vqp := c.2.2, hdr := some (fitTo 136 b) }

/-- Write back the headers of an OPEN_CONTEXT: when one failed, those that passed show CANCELLED (R332). -/
def State.headersBack (s : State) (f table : Nat) (l : List HeaderOutcome) : State :=
  let good := l.all fun o => o.status == 0
  l.foldl (fun s o => match o.hdr with
    | none => s
    | some _ => if o.status = 0 && !good then s.headerBack f (table + 128 * o.ring) 0x0C 0 0
      else s.headerBack f (table + 128 * o.ring) o.status o.detail o.vqp) s

/-! ## Descriptors (R334, R341, R342) -/

/-- The opcodes of R341. -/
def opcodes : List Nat :=
  [0x01, 0x02, 0x10, 0x11, 0x12, 0x13, 0x20, 0x21, 0x22, 0x30, 0x31, 0x40, 0x41, 0x50, 0x51, 0x52, 0x60, 0x61, 0x70, 0x71, 0x72]

/-- Is an opcode accepted on the admin ring, or on a context ring (R326)? -/
def opAccepted (admin : Bool) (op : Nat) : Bool :=
  if admin then [0x01, 0x02, 0x60, 0x61, 0x70].contains op else op ∈ opcodes && op != 0x01 && op != 0x02

/-- Are the reserved bytes and bits of a body zero (R342)? The body's offsets are those of R342 less 0x40. -/
def bodyReservedOk (op : Nat) (b : Bytes) : Bool :=
  let from_ : Nat → Bool := fun n => allZero (b.drop n)
  match op with
  | 0x01 => leAt b 0 1 < 64 && leAt b 1 1 < 8 && leAt b 5 1 < 16 && leAt b 0x0C 4 == 0 && from_ 0x20
  | 0x02 => leAt b 0 1 < 2 && from_ 1
  | 0x10 => leAt b 2 1 < 4 && leAt b 3 1 == 0 && from_ 0x10
  | 0x11 => from_ 2
  | 0x12 => from_ 2
  | 0x13 => leAt b 0 8 == 0 && from_ 0x10
  | 0x20 => from_ 0x10
  | 0x21 => from_ 4
  | 0x22 => from_ 7
  | 0x30 => leAt b 0x2C 4 == 0
  | 0x31 => from_ 0x20
  | 0x40 => from_ 0x20
  | 0x41 => leAt b 0x0C 4 == 0 && from_ 0x20
  | 0x50 => leAt b 2 1 < 16 && leAt b 4 4 == 0 && from_ 0x22
  | 0x51 => from_ 1
  | 0x52 => leAt b 4 4 == 0 && from_ 0x18
  | 0x60 => leAt b 0 1 < 2 && from_ 1
  | 0x61 => from_ 8
  | 0x70 => leAt b 1 1 < 2 && leAt b 2 2 == 0 && from_ 0x1C
  | 0x71 => from_ 0
  | 0x72 => leAt b 0 8 == 0 && from_ 0x18
  | _ => true

/-- Are the body fields whose ranges R342 gives in range? -/
def bodyRangeOk (op : Nat) (b : Bytes) : Bool :=
  match op with
  | 0x01 => leAt b 4 1 != 0 && leAt b 4 1 ≤ 128 && leAt b 6 2 != 0 && leAt b 0x18 8 % 2048 == 0
  | 0x10 => leAt b 0 2 != 0
  | 0x11 => leAt b 0 2 != 0
  | 0x12 => leAt b 0 2 != 0
  | 0x22 => leAt b 4 2 != 0 && leAt b 6 1 ≤ 1
  | 0x30 => leAt b 8 8 % 64 == 0 && leAt b 0x28 2 != 0 && leAt b 0x28 2 ≤ 1024 && leAt b 0x2A 2 != 0
  | 0x31 => leAt b 8 8 % 64 == 0
  | 0x50 => leAt b 1 1 ≤ 1 && leAt b 0x20 2 != 0 && leAt b 0x20 2 ≤ 256 && (leAt b 1 1 == 0 || leAt b 3 1 == 0)
  | 0x70 => leAt b 0 1 ≤ 5
  | 0x72 => leAt b 8 8 % Config.page == 0 && leAt b 0x10 8 != 0 && leAt b 0x10 8 % Config.page == 0
  | _ => true

/-- The dependencies of a descriptor. -/
def descDeps (b : Bytes) : List Word := (List.range (leAt b 2 1)).map fun i => BitVec.ofNat 64 (leAt b (0x20 + 8 * i) 8)

/-- Are the reserved fields of a descriptor zero (R334, R335)? -/
def descHeaderOk (admin : Bool) (vqp : Nat) (b : Bytes) : Bool :=
  let fl := leAt b 1 1
  let dl := fl.testBit 4 && vqp != 0x0100
  fl < 32 && (vqp != 0x0100 || !fl.testBit 4) && leAt b 3 5 == 0 && leAt b 0x0E 1 == 0 &&
    (if admin then (leAt b 0 1 != 0x60 && leAt b 0 1 != 0x61) || leAt b 0x0F 1 == 0 else leAt b 0x0F 1 == 0) &&
    (fl.testBit 1 || leAt b 0x10 8 == 0) && (dl || leAt b 0x18 8 == 0) && (4 < leAt b 2 1 || allZero ((b.drop (0x20 + 8 * leAt b 2 1)).take (32 - 8 * leAt b 2 1)))

/-- Is a dependency valid for a command of a ring whose own number is `seq` (R337)? -/
def State.depValid (s : State) (id : RingId) (seq : Nat) (d : Word) : Bool :=
  let named := match id with
    | .ctx x _ => field d 56 8 == x && field d 48 8 < 16
    | .admin => field d 48 8 == 0xFF
  let next := ((s.ring (ringOf d)).map fun r => r.fetched).getD 0
  named && (ringOf d != id || seqOf d < seq) && seqOf d < next + 4096

/-- The first check of R335 that a descriptor fails at fetch, by its DETAIL code. -/
def State.fetchCheck (s : State) (id : RingId) (vqp seq : Nat) (b : Bytes) : Option Nat :=
  let admin := id == .admin
  let op := leAt b 0 1
  let body := b.drop 64
  if !descHeaderOk admin vqp b || !bodyReservedOk op body then some 1
  else if !opAccepted admin op then some 2
  else if leAt b 8 6 != seq then some 3
  else if 4 < leAt b 2 1 || !((descDeps b).all fun d => s.depValid id seq d) then some 4
  else if !bodyRangeOk op body then some 5
  else none

/-- Parts of a command known at fetch (R350); one that names none is rejected, and that is a failure of one part (R335, R349). -/
def partsAtFetch (op : Nat) (b : Bytes) : Nat :=
  if op = 0x30 then max 1 (leAt b 0x28 2)
  else if op = 0x72 then
    let n := leAt b 0x10 8 / Config.page
    max 1 (ceilDiv n (ceilDiv n 64))
  else 1

end Sys2Proof.Machine
end

