-- ==== Sys2Proof/Machine/Colls.lean ====
section
/-! DEFINITION. Collectives (R416 to R440). -/

namespace Sys2Proof.Machine

/-! ## The block (R416 to R420) -/

/-- A buffer entry (R417). -/
def collBuf (b : Bytes) (off : Nat) : CollBuf :=
  { addr := leAt b off 8, len := leAt b (off + 8) 6, kind := leAt b (off + 14) 1, core := leAt b (off + 15) 1 }

/-- Is an operation a reduction (R418)? -/
def isReduction (op : Nat) : Bool := op = 0x10 || op = 0x11 || op = 0x12

/-- Bytes of an element of a type (R55). -/
def typeBytes (dtype : Nat) : Nat := if dtype = 7 || dtype = 9 then 4 else 8

/-- Does a buffer entry keep R417? -/
def collBufOk (cores : Nat) (u : CollBuf) : Bool :=
  u.len < 2 ^ 38 && u.kind ≤ 1 && (if u.kind = 1 then u.addr < 2 ^ 24 && u.addr % 512 == 0 && u.core < cores else u.core == 0)

/-- Members of a table of 4-byte entries, in the WRITERS layout: (node, context). -/
def memberList (b : Bytes) : List (Nat × Nat) := (List.range (b.length / 4)).map fun i => (leAt b (4 * i + 2) 2, leAt b (4 * i + 1) 1)

/-- The collective of a block and its member table. -/
def collOf (group cseq : Nat) (b t : Bytes) : CollRun :=
  { group, cseq, members := memberList t, rank := leAt b 0x0A 2, wbase := leAt b 0x0C 1, depth := leAt b 0x0D 1, op := leAt b 0x0E 1
    dtype := leAt b 0x0F 1, redop := leAt b 0x10 1, root := leAt b 0x11 1, window := signN 16 (leAt b 0x12 2)
    stallTurns := leAt b 0x14 4, limitTurns := leAt b 0x18 4, src := collBuf b 0x20, dst := collBuf b 0x30
    work := collBuf b 0x40, countsAt := leAt b 0x50 8, drawKey := BitVec.ofNat 128 (leAt b 0x58 16), orgR := leAt b 0x68 4, orgC := leAt b 0x6C 4
    check := leAt (digestBytes (sha512 (toLe 4 group ++ t ++ sliceAt b 0x0C 8 ++ sliceAt b 0x58 24))) 0 4 }

/-- Reserved fields of a block and of its member table. -/
def collReservedOk (b t : Bytes) : Bool :=
  leAt b 6 2 == 0 && leAt b 0x1C 4 == 0 && leAt b 0x56 2 == 0 && leAt b 0x6B 1 == 0 && leAt b 0x6F 1 == 0 && allZero (sliceAt b 0x70 16) &&
    (List.range (t.length / 4)).all fun i => leAt t (4 * i) 1 == 0

/-- The zero buffer entry. -/
def CollBuf.unused (u : CollBuf) : Bool := u == {}

/-- The ranges of a block (R416, R417, R418, R428). -/
def collRangeOk (cores p : Nat) (c : CollRun) : Bool :=
  2 ≤ p && p ≤ 256 && c.rank < p && 1 ≤ c.depth && c.depth ≤ 64 && c.wbase + c.depth ≤ 256 &&
    (c.op ∈ [1, 2, 3, 4, 5, 6, 0x10, 0x11, 0x12]) &&
    (if isReduction c.op then
      (c.dtype == 7 || c.dtype == 8 || c.dtype == 9 || c.dtype == 0xA) && c.redop ≤ 2 && (c.dtype != 0xA || c.redop == 0)
     else c.dtype == 0 && c.redop == 0 && c.work.unused) &&
    (c.op != 6 || (c.src.unused && c.dst.unused)) && (c.dtype == 0xA || c.window == 0) &&
    (if c.op ∈ [1, 2, 3, 0x10] then c.root < p else c.root == 0) &&
    collBufOk cores c.src && collBufOk cores c.dst && collBufOk cores c.work

/-- The window number of a collective (R422). -/
def CollRun.win (c : CollRun) : Nat := c.wbase + c.cseq % c.depth

/-- The number of members. -/
def CollRun.p (c : CollRun) : Nat := c.members.length

/-- Bytes of a count-table entry (R424). -/
def CollRun.entryLen (c : CollRun) : Nat := 16 + 8 * c.p

/-- The collectives of a context that are fetched and not completed, with their handles. -/
def State.collsOf (s : State) (x : Nat) : List (Word × CollRun) :=
  s.cmds.filterMap fun m => match m.work with
    | .coll c => if m.target = x then some (m.handle, c) else none
    | _ => none

/-- The collective of a command. -/
def State.coll (s : State) (h : Word) : Option CollRun :=
  match s.cmd h with
  | none => none
  | some m => match m.work with
    | .coll c => some c
    | _ => none

/-- Change the collective of a command. -/
def State.modColl (s : State) (h : Word) (f : CollRun → CollRun) : State :=
  s.modCmd h fun m => match m.work with
    | .coll c => { m with work := .coll (f c) }
    | _ => m

/-- The collective whose window is open on a number. -/
def State.collAt (s : State) (x w : Nat) : Option (Word × CollRun) := (s.collsOf x).find? fun e => e.2.winOpen && e.2.win == w

/-! ## Buffers -/

/-- May a buffer be reached now: a scratchpad buffer needs its shelves (R435)? -/
def State.bufReady (s : State) (x : Nat) (u : CollBuf) : Bool := u.kind = 0 || s.resident x u.core

/-- Read a buffer. -/
def State.bufRead (s : State) (x : Nat) (h : Word) (u : CollBuf) (off n : Nat) : Option (State × Bytes × Bool) :=
  if n = 0 then some (s, [], false)
  else if u.kind = 1 then
    (if u.addr + off + n ≤ (s.ctx x).req.shelves * 65536 then some (s.remoteRead x u.core (u.addr + off) n) else none)
  else s.vread x (some h) {} (u.addr + off) n

/-- May a range of a buffer be written? -/
def State.bufFits (s : State) (x : Nat) (u : CollBuf) (off n : Nat) : Bool :=
  n = 0 || (if u.kind = 1 then u.addr + off + n ≤ (s.ctx x).req.shelves * 65536 else (s.translateAll x .write false (u.addr + off) n).isSome)

/-- Write a buffer; poison poisons what it touches. -/
def State.bufWrite (s : State) (x : Nat) (h : Option Word) (u : CollBuf) (off : Nat) (d : Bytes) (poison : Bool) : State :=
  if d.isEmpty then s
  else if u.kind = 1 then s.remoteWrite x u.core (u.addr + off) d poison
  else if poison then s.vpoison x h {} (u.addr + off) d.length
  else (s.vwrite x h {} (u.addr + off) d false).getD s

/-- Poison a range of a buffer: the codewords, or the rows, that it touches (R351). -/
def State.bufPoison (s : State) (x : Nat) (h : Word) (u : CollBuf) (off n : Nat) : State :=
  if n = 0 then s
  else if u.kind = 1 then
    s.modLcore x u.core fun l => { l with poison := (rowPieces (u.addr + off) n).foldl (fun q p => addNew (p.1 / 512) q) l.poison }
  else s.vpoison x (some h) {} (u.addr + off) n

/-- The units of poison that a range of a buffer touches: rows, or codewords. -/
def CollBuf.units (u : CollBuf) (off n : Nat) : List Nat :=
  if n = 0 then [] else if u.kind = 1 then (rowPieces (u.addr + off) n).map fun p => p.1 / 512
  else (pieces (u.addr + off) n).map fun p => p.1 / 128

/-! ## Counts (R418, R419) -/

/-- C[i][j]. -/
def CollRun.cnt (c : CollRun) (i j : Nat) : Nat := (c.counts.getD i []).getD j 0

/-- Sum over an initial run of ranks. -/
def sumTo (n : Nat) (f : Nat → Nat) : Nat := ((List.range n).map f).sum

/-- Does the matrix obey R418? -/
def CollRun.matrixOk (c : CollRun) : Bool :=
  let r := List.range c.p
  let rowZero : Nat → Bool := fun i => r.all fun j => c.cnt i j == 0
  let rowEven : Nat → Bool := fun i => r.all fun j => c.cnt i j == c.cnt i 0
  match c.op with
  | 1 => r.all fun i => if i = c.root then rowEven i else rowZero i
  | 2 => r.all fun i => i == c.root || rowZero i
  | 3 => r.all fun j => j == c.root || r.all fun i => c.cnt i j == 0
  | 4 => r.all rowEven
  | 5 => true
  | 6 => r.all rowZero
  | _ => r.all fun i => r.all fun j => c.cnt i j == c.cnt 0 j

/-- Elements of a reduction. -/
def CollRun.total (c : CollRun) : Nat := sumTo c.p fun j => c.cnt 0 j

/-- O_j of R419. -/
def CollRun.orig (c : CollRun) (j : Nat) : Nat := sumTo j fun i => c.cnt 0 i

/-- Offset in SRC of the bytes for rank j. -/
def CollRun.srcOff (c : CollRun) (j : Nat) : Nat := if c.op = 1 || c.op = 4 then 0 else sumTo j fun k => c.cnt c.rank k

/-- Offset in the DST of rank j of the bytes from rank i. -/
def CollRun.dstOff (c : CollRun) (i j : Nat) : Nat := sumTo i fun k => c.cnt k j

/-- Are SRC, DST and WORK long enough (R419, R425)? -/
def CollRun.longEnough (c : CollRun) : Bool :=
  let e := typeBytes c.dtype
  if isReduction c.op then
    e * c.total ≤ c.src.len &&
      (if c.op = 0x10 then c.rank != c.root || (e * c.p * c.total ≤ c.work.len && e * c.total ≤ c.dst.len)
       else e * c.p * c.cnt 0 c.rank ≤ c.work.len && (if c.op = 0x11 then e * c.total else e * c.cnt 0 c.rank) ≤ c.dst.len)
  else
    (if c.op = 1 || c.op = 4 then c.cnt c.rank 0 else sumTo c.p fun j => c.cnt c.rank j) ≤ c.src.len &&
      (sumTo c.p fun i => c.cnt i c.rank) ≤ c.dst.len

/-- The count-table entry of a member (R424). -/
def CollRun.entry (c : CollRun) (row : List Nat) : Bytes :=
  toLe 4 c.check ++ toLe 2 c.rank ++ List.replicate 10 0 ++ row.flatMap fun n => toLe 8 n

/-- ROFF of a message (R423). -/
def CollRun.roff (c : CollRun) (region off : Nat) : Nat := c.cseq % 256 * 2 ^ 40 + region * 2 ^ 38 + off

/-! ## Sending (R425, R426, R397) -/

/-- The header of a collective's PUT. -/
def State.collHdr (s : State) (x : Nat) (c : CollRun) (u : CollPut) : MsgHdr :=
  let m := c.members.getD u.rank (0xFFFF, 0)
  { mtype := 1, z := false, poison := false, rmode := 0, hops := 0, status := 0, dstNode := m.1, srcNode := s.selfNode, dstCtx := m.2, srcCtx := x
    window := c.win, op := 0, len := u.data.length, roff := c.roff u.region u.off, tag := u.tag, part := 0, npart := nparts u.data.length, zmap := 0 }

/-- The status of one of a collective's PUTs has come: a final one other than DONE fails the sender's part for that rank (R433, R434). -/
def State.collPutDone (s : State) (h : Word) (tag status : Nat) : State :=
  match s.coll h with
  | none => s
  | some c =>
    match c.puts.find? fun u => u.tag == tag && !u.dropped with
    | none => s
    | some u =>
      let s := s.modColl h fun c => { c with puts := modWhere (fun v => v.tag == tag) (fun v => { v with status := some status }) c.puts }
      let part := if isReduction c.op || c.op = 6 then 0 else u.rank
      let st := if status = 0x06 then 0x06 else if status = 0x0A then 0x05 else 0x02
      if status = 0 || [0x01, 0x08, 0x09, 0x0C].contains status then s else s.modCmd h fun m => m.failPart part st

/-- Put a collective's PUT on its way; one that has no route ends as UNREACHABLE at once, one to a node declared down ends as
PEER_DOWN, or is dropped where the member's count entry has come (R400, R411, R436; log entry 143). -/
def State.sendCollPut (s : State) (x : Nat) (h : Word) (c : CollRun) (u : CollPut) : State :=
  let node := (c.members.getD u.rank (0xFFFF, 0)).1
  let self := s.isSelf node
  let p := if self then none else s.routeFor (some x) node
  if !self && node ∈ c.lost then
    (if u.rank ∈ c.tableGot then s.modColl h fun c => { c with puts := modWhere (fun v => v.tag == u.tag) (fun v => { v with dropped := true }) c.puts }
     else s.collPutDone h u.tag 0x0A)
  else if !self && p.isNone then s.collPutDone h u.tag 0x08
  else
    let parts := (partsOf u.data.length).map fun q => ((u.data.drop q.1).take q.2, u.poison)
    let s := s.sendParts (s.collHdr x c u) p (s.mayCompress x p u.secret) parts
    let out : OutOp := { tag := u.tag, ctx := x, lcore := 0, node, op := 0, len := u.data.length, port := p, coll := some h }
    (({ s with fabric := { s.fabric with outOps := (s.fabric.outOps.filter fun o => o.tag != u.tag) ++ [out] } } : State).bumpFw x 20 u.data.length)

/-- A collective's new PUT of at most 2^20 bytes. -/
def State.newCollPut (s : State) (x : Nat) (h : Word) (c : CollRun) (rank region off : Nat) (d : Bytes) (isData secret poison : Bool) : State :=
  let tag := s.fabric.nextTag
  let u : CollPut := { tag, rank, region, off, data := d, isData, secret, poison }
  let s : State := { s with fabric := { s.fabric with nextTag := (tag + 1) % 2 ^ 32 } }
  (s.modColl h fun c => { c with puts := c.puts ++ [u] }).sendCollPut x h c u

/-- Send bytes to a region of a rank, in PUTs of at most 2^20 bytes (R397). -/
def State.collSend (s : State) (x : Nat) (h : Word) (c : CollRun) (rank region off : Nat) (d : Bytes) (isData secret poison : Bool) : State :=
  (List.range (ceilDiv d.length (2 ^ 20))).foldl (fun s i =>
    s.newCollPut x h c rank region (off + i * 2 ^ 20) ((d.drop (i * 2 ^ 20)).take (2 ^ 20)) isData secret poison) s

/-- Send a range of SRC to a rank. -/
def State.collSendSrc (s : State) (x : Nat) (h : Word) (c : CollRun) (u : CollBuf) (srcOff rank region off n : Nat) : State :=
  if n = 0 then s
  else match s.bufRead x h u srcOff n with
    | none => s.modCmd h fun m => m.failWhole 0x03 0x0A
    | some r =>
      let secret := if u.kind = 1 then (s.ctx x).req.modes.testBit 1 else s.secretAt x (u.addr + srcOff) n
      r.1.collSend x h c rank region off r.2.1 true secret r.2.2

/-- A released collective whose window is open sends its count entry to every member (R422, R425). -/
def State.collBegin (s : State) (x : Nat) (h : Word) : State :=
  match s.coll h with
  | none => s
  | some c =>
    if !c.released || !c.winOpen || c.begun then s
    else
      let s := s.modColl h fun c => { c with begun := true }
      (List.range c.p).foldl (fun s j => s.collSend x h c j 0 (c.rank * c.entryLen) (c.entry (c.counts.getD 0 [])) false false false) s

/-- Open the window of a waiting collective: the number is free (R422). -/
def State.collOpen (s : State) (x : Nat) (h : Word) : State :=
  match s.coll h with
  | none => s
  | some c =>
    ((s.modCtx x fun cx => { cx with tombs := Tab.del cx.tombs c.win }).modColl h fun c => { c with winOpen := true }).collBegin x h

/-- Open the window of the waiting collective of lowest CSEQ on a number. -/
def State.collOpenNext (s : State) (x w : Nat) : State :=
  match sortBy (fun (e : Word × CollRun) => e.2.cseq) ((s.collsOf x).filter fun e => !e.2.winOpen && e.2.win == w) with
  | [] => s
  | e :: _ => s.collOpen x e.1

/-! ## Fetch and release (R420 to R422, R425) -/

/-- The outcome of a COLLECTIVE's fetch. -/
inductive CollFetch where
  | bad (status detail : Nat)
  | ok (c : CollRun)
  deriving DecidableEq, Repr

/-- The checks of R420 on a COLLECTIVE's body. -/
def State.collCheck (s : State) (x : Nat) (body : Bytes) : CollFetch :=
  let at_ := leAt body 0x10 8
  match s.vpeek x at_ 128 with
  | none => .bad 0x03 0x0A
  | some b =>
    let p := leAt b 8 2
    match s.vpeek x (leAt b 0 6) (4 * min p 256) with
    | none => .bad 0x03 0x0A
    | some t =>
      let c := collOf (leAt body 0 4) (leAt body 8 8) b t
      let me := c.members.getD c.rank (0, 0)
      if !collReservedOk b t then .bad 0x02 0x01
      else if at_ % 128 != 0 || !collRangeOk (s.ctx x).req.cores p c then .bad 0x02 0x05
      else if !s.isSelf me.1 || me.2 != x || c.members.eraseDups.length != c.members.length then .bad 0x02 0x05
      else if ((s.collsOf x).any fun e => (e.2.group == c.group && e.2.cseq == c.cseq) || (e.2.winOpen && e.2.win == c.win && e.2.group != c.group)) ||
          (Tab.opt (s.ctx x).windows c.win).isSome then .bad 0x02 0x06
      else .ok c

/-- Count a collective that completes with a status other than OK (R439). -/
def State.collFailed (s : State) (x : Nat) : State := (s.bumpFw x 15 1).bumpFw x 16 1

/-- Fetch of a COLLECTIVE whose command is in the table: its checks, its page, and its window if the number is free. -/
def State.collFetch (s : State) (x : Nat) (m : Cmd) : State :=
  let at_ := leAt m.body 0x10 8
  let s := (s.bumpFw x 14 1).touch x (some m.handle) {} at_ 128
  let s := match s.vpeek x at_ 128 with
    | some b => s.touch x (some m.handle) {} (leAt b 0 6) (4 * min (leAt b 8 2) 256)
    | none => s
  match s.collCheck x m.body with
  | .bad st d => (s.collFailed x).failCmd m.handle st d
  | .ok c =>
    match s.freeOf [s.localRange (s.ctx x).home] 1 with
    | some (pg :: _) =>
      let s := s.giveOut [pg] (.countTable x)
      let busy := (s.collsOf x).any fun e => e.2.win == c.win
      let s := s.modCmd m.handle fun m => { m with work := .coll { c with page := pg, lost := (c.members.map fun w => w.1).filter (· ∈ s.fabric.down) }, nparts := if isReduction c.op || c.op = 6 then 1 else c.p }
      if busy then s.bumpFw x 17 1 else s.collOpen x m.handle
    | _ => (s.collFailed x).failCmd m.handle 0x0D 0

/-- Release of a COLLECTIVE: its count vector is read (R425). -/
def State.collRelease (s : State) (x : Nat) (m : Cmd) : State :=
  match s.coll m.handle with
  | none => s
  | some c =>
    match s.vread x (some m.handle) {} c.countsAt (8 * c.p) with
    | some (s, b, false) =>
      (s.modColl m.handle fun c => { c with released := true, counts := [(List.range c.p).map fun j => leAt b (8 * j) 8] }).collBegin x m.handle
    | _ => (s.modColl m.handle fun c => { c with released := true, begun := true }).modCmd m.handle fun m => m.failWhole 0x03 0x0A

/-! ## Reduction (R427 to R429) -/

/-- What one combination gives: the element and its accumulation flags. A W64 sum is clamped at WINDOW, as R428 has it (log entry 120). -/
def CollRun.comb (c : CollRun) (a b l x e : Nat) : Nat × Nat :=
  if c.dtype = 0xA then
    if a = wNaR || b = wNaR then (wNaR, afNonfinite)
    else
      let r := signN 64 a + signN 64 b
      (wrapN 64 (max (-wLim) (min wLim r)), if inWide r then 0 else afSaturated)
  else if c.dtype = 7 then
    if c.redop = 0 then
      let u := drawByte c.drawKey 3 0 (256 * l + x) ((c.orgR + e / 2 ^ 24) % 2 ^ 24) ((c.orgC + e % 2 ^ 24) % 2 ^ 24)
      let r := combineCompact a b u
      (r.1, (if r.2.1 then afInexact else 0) + (if r.2.2.1 then afSaturated else 0) + (if r.2.2.2 then afNonfinite else 0))
    else
      let r := (fMinMax 8 23 (c.redop == 1) a b).1
      (r, match fDecode 8 23 r with
        | .nan _ => afNonfinite
        | _ => 0)
  else if c.dtype = 8 then
    let q := if c.redop = 0 then fAdd 11 52 a b else fMinMax 11 52 (c.redop == 1) a b
    let nf := match fDecode 11 52 q.1 with
      | .nan _ => true
      | .inf _ => c.redop == 0
      | _ => false
    (q.1, (if c.redop = 0 && q.2 % 2 = 1 then afInexact else 0) + (if nf then afNonfinite else 0))
  else
    let x := signN 32 a
    let y := signN 32 b
    (wrapN 32 (if c.redop = 0 then x + y else if c.redop = 1 then max x y else min x y), 0)

/-- One level of the tree: pairs of nodes, an absent right child passing the left one on. -/
def CollRun.level (c : CollRun) (l e : Nat) : Nat → List Nat → List Nat × Nat
  | _, [] => ([], 0)
  | _, [a] => ([a], 0)
  | x, a :: b :: r =>
    let q := c.comb a b l x e
    let t := c.level l e (x + 1) r
    (q.1 :: t.1, q.2 ||| t.2)

/-- `coll_reduce` (R427). -/
def CollRun.reduce (c : CollRun) (e : Nat) : Nat → Nat → List Nat → Nat × Nat
  | 0, _, v => (v.headD 0, 0)
  | n + 1, l, v =>
    if v.length ≤ 1 then (v.headD 0, 0)
    else
      let r := c.level l e 0 v
      let t := c.reduce e n (l + 1) r.1
      (t.1, r.2 ||| t.2)

/-- The chunks that a member reduces: (first element, elements, offset in WORK of rank i's contribution in elements). -/
def CollRun.chunk (c : CollRun) : Nat × Nat × (Nat → Nat) :=
  if c.op = 0x10 then (0, if c.rank = c.root then c.total else 0, fun i => i * c.total)
  else (c.orig c.rank, c.cnt 0 c.rank, fun i => i * c.cnt 0 c.rank)

/-- Reduce the chunk of a member into bytes: its own contribution comes from SRC, the others' from WORK. -/
def CollRun.reduceBytes (c : CollRun) (own work : Bytes) : Bytes × Nat :=
  let e := typeBytes c.dtype
  let k := c.chunk
  (List.range k.2.1).foldl (fun a i =>
    let leaf := (List.range c.p).map fun r => if r = c.rank then leAt own (e * i) e else leAt work (e * (k.2.2 r + i)) e
    let v := c.reduce (k.1 + i) 9 1 leaf
    (a.1 ++ toLe e v.1, a.2 ||| v.2)) ([], 0)

/-! ## Progress (R425, R426, R437) -/

/-- Bytes that have arrived whole from a rank in a region. -/
def CollRun.got (c : CollRun) (region rank : Nat) : Nat := ((c.recv.filter fun r => r.1 == region && r.2.1 == rank).map fun r => r.2.2.2).sum

/-- Bytes that a member awaits from rank i in WORK. -/
def CollRun.workFrom (c : CollRun) (i : Nat) : Nat := if i = c.rank then 0 else typeBytes c.dtype * c.chunk.2.1

/-- Bytes that a member awaits from rank i in DST. -/
def CollRun.dstFrom (c : CollRun) (i : Nat) : Nat :=
  if isReduction c.op then (if c.op = 0x11 && i != c.rank then typeBytes c.dtype * c.cnt 0 i else 0)
  else if c.op = 6 then 0 else c.cnt i c.rank

/-- Has all that rank i writes into this member's DST arrived? -/
def CollRun.arrived (c : CollRun) (i : Nat) : Bool := c.checked && c.dstFrom i ≤ c.got 1 i

/-- Is a PUT at its end: a final status, or dropped? -/
def CollPut.isOver (u : CollPut) : Bool := u.dropped || u.status.any fun st => !([0x01, 0x08, 0x09, 0x0C].contains st)

/-- Does a PUT wait to be repeated (R433)? -/
def CollPut.again (u : CollPut) : Bool := !u.dropped && u.status.any fun st => [0x01, 0x08, 0x09, 0x0C].contains st

/-- Is a part of a collective at its end? -/
def CollRun.partOver (c : CollRun) (m : Cmd) (j : Nat) : Bool :=
  m.failures.any (fun f => f.1 == j) ||
    (c.checked && (if isReduction c.op then (c.reduced || c.chunk.2.1 == 0) && (List.range c.p).all c.arrived
      else if c.op = 6 then true else c.arrived j))

/-- COLL_COUNT_CHECK may run: the table is full, and the sources can be read (R425, R435). -/
def State.collTableFull (s : State) (x : Nat) (c : CollRun) : Bool :=
  c.begun && !c.checked && c.tableGot.length == c.p && s.bufReady x c.src && s.bufReady x c.dst && s.bufReady x c.work

/-- The data that a member sends once its count table is checked (R426). -/
def State.collData (s : State) (x : Nat) (h : Word) (c : CollRun) : State :=
  let e := typeBytes c.dtype
  (List.range c.p).foldl (fun s j =>
    if c.op = 0x10 then
      (if j = c.root && j != c.rank then s.collSendSrc x h c c.src 0 j 2 (e * c.rank * c.total) (e * c.total) else s)
    else if isReduction c.op then
      (if j = c.rank then s else s.collSendSrc x h c c.src (e * c.orig j) j 2 (e * c.rank * c.cnt 0 j) (e * c.cnt 0 j))
    else s.collSendSrc x h c c.src (c.srcOff j) j 1 (c.dstOff c.rank j) (c.cnt c.rank j)) s

/-- COLL_COUNT_CHECK (R425, R426). -/
def execCollCountCheck (h : Word) (s : State) : Host.Outcome State Fault Refusal :=
  match s.cmd h, s.coll h with
  | some m, some c =>
    when (s.serving && m.whole.isNone && s.collTableFull m.target c) s fun s =>
      let t := Tab.span c.table 0 0 (c.p * c.entryLen)
      let ent := (List.range c.p).map fun i => sliceAt t (i * c.entryLen) c.entryLen
      let c' := { c with checked := true, counts := ent.map fun b => (List.range c.p).map fun j => leAt b (16 + 8 * j) 8 }
      let same := (ent.zipIdx).all fun b => leAt b.1 0 4 == c.check && leAt b.1 4 2 == b.2
      let s := s.modColl h fun _ => c'
      if !same || !c'.matrixOk then s.modCmd h fun m => m.failWhole 0x02 0x05
      else if !c'.longEnough then (s.modColl h fun c => { c with short := true }).modCmd h fun m => m.failWhole 0x02 0x05
      else s.collData m.target h c'
  | _, _ => idle s

/-- COLL_CHUNK_REDUCE (R426, R427): all contributions to this member's chunk are in, and it reduces it; under ALL_REDUCE the chunk goes to
every other member. -/
def execCollChunkReduce (h : Word) (s : State) : Host.Outcome State Fault Refusal :=
  match s.cmd h, s.coll h with
  | some m, some c =>
    when (s.serving && m.whole.isNone && c.checked && isReduction c.op && !c.reduced && c.chunk.2.1 != 0 &&
        ((List.range c.p).all fun i => c.workFrom i ≤ c.got 2 i) && s.bufReady m.target c.src && s.bufReady m.target c.dst &&
        s.bufReady m.target c.work) s fun s =>
      let e := typeBytes c.dtype
      let x := m.target
      let n := e * c.chunk.2.1
      let off := if c.op = 0x11 then e * c.orig c.rank else 0
      match s.bufRead x h c.src (e * c.chunk.1) n with
      | none => s.modCmd h fun m => m.failWhole 0x03 0x0A
      | some (s, own, p1) =>
        match s.bufRead x h c.work 0 (n * c.p) with
        | none => s.modCmd h fun m => m.failWhole 0x03 0x0A
        | some (s, work, p2) =>
          if p1 || p2 then s.modCmd h fun m => m.failWhole 0x06 0
          else if !s.bufFits x c.dst off n then s.modCmd h fun m => m.failWhole 0x03 0x0A
          else
            let r := c.reduceBytes own work
            let s := (s.bufWrite x (some h) c.dst off r.1 false).modCmd h fun m => { m with acc := m.acc ||| r.2 }
            let s := s.modColl h fun c => { c with reduced := true }
            if c.op = 0x11 then
              let secret := if c.dst.kind = 1 then (s.ctx x).req.modes.testBit 1 else s.secretAt x (c.dst.addr + off) n
              (List.range c.p).foldl (fun s j => if j = c.rank then s else s.collSend x h c j 1 (e * c.orig c.rank) r.1 true secret false) s
            else s
  | _, _ => idle s

/-! ## Completion (R437) -/

/-- The DST range of a part. -/
def CollRun.partRange (c : CollRun) (j : Nat) : Nat × Nat :=
  if !c.checked || isReduction c.op then (0, c.dst.len) else (c.dstOff j c.rank, c.cnt j c.rank)

/-- A collective ends: failed parts' ranges are poisoned, the window number becomes a tombstone, the page is freed, and the next waiting
collective opens its window (R351, R422, R423, R437). -/
def State.collEnd (s : State) (h : Word) (m : Cmd) (c : CollRun) : State :=
  let x := m.target
  let cws := (List.range m.nparts).map fun j => (j, c.dst.units (c.partRange j).1 (c.partRange j).2)
  let f := if c.op = 6 then m.failures else closeParts cws (m.nparts + 1) m.failures
  let s := s.modCmd h fun m => if m.whole.isSome then m else { m with failed := f }
  let s := if c.op = 6 then s else f.foldl (fun s e => s.bufPoison x h c.dst (c.partRange e.1).1 (c.partRange e.1).2) s
  let value := if isReduction c.op then (if f.isEmpty then (if c.op = 0x11 then typeBytes c.dtype * c.total else typeBytes c.dtype * c.chunk.2.1) else 0)
    else (((List.range m.nparts).filter fun j => !(f.any fun e => e.1 == j)).map fun j => c.dstFrom j).sum
  let s : State := { s with fabric := { s.fabric with outOps := s.fabric.outOps.filter fun o => o.coll != some h }
                            mem := { s.mem with pages := Tab.del s.mem.pages c.page } }
  let s := s.modCtx x fun cx => if c.winOpen then { cx with tombs := Tab.ins cx.tombs c.win (c.group, c.cseq, c.short) } else cx
  let s := ((s.bumpFw x 15 1).bumpFw x 16 (if f.isEmpty then 0 else 1)).okCmd h (BitVec.ofNat 64 value)
  if c.winOpen then s.collOpenNext x c.win else s

/-- COLL_COMPLETE (R437): every part is at its end, and every PUT has a final status or has been dropped. -/
def execCollComplete (h : Word) (s : State) : Host.Outcome State Fault Refusal :=
  match s.cmd h, s.coll h with
  | some m, some c =>
    when (s.serving && c.released && ((List.range m.nparts).all (c.partOver m)) && c.puts.all CollPut.isOver &&
        (m.failures.isEmpty || s.bufReady m.target c.dst)) s fun s => s.collEnd h m c
  | _, _ => idle s

/-- Fail every part of a collective that has not finished, and drop its PUTs (R432, R434). -/
def State.collAbort (s : State) (h : Word) (status : Nat) : State :=
  match s.cmd h, s.coll h with
  | some m, some c =>
    let s := s.modCmd h fun m => (List.range m.nparts).foldl (fun m j => if c.partOver m j then m else m.failPart j status) m
    let c := { c with puts := c.puts.map fun u => { u with dropped := true } }
    let s := s.modColl h fun _ => c
    s.collEnd h ((s.cmd h).getD m) c
  | _, _ => s

/-- COLL_LIMIT (R432): the stall count has reached LIMIT_TURNS, and the parts not finished fail as TIMED_OUT. -/
def execCollLimit (h : Word) (s : State) : Host.Outcome State Fault Refusal :=
  match s.coll h with
  | some c => when (s.serving && c.released && c.limitTurns != 0 && c.limitTurns ≤ c.stall) s fun s => s.collAbort h 0x04
  | none => idle s

/-- The ranks still awaited, and the phase (R432). -/
def CollRun.awaited (c : CollRun) : List Nat × Nat :=
  if !c.checked then ((List.range c.p).filter fun i => i ∉ c.tableGot, 0)
  else
    let w := (List.range c.p).filter fun i => isReduction c.op && c.got 2 i < c.workFrom i
    if w.isEmpty then ((List.range c.p).filter fun i => c.got 1 i < c.dstFrom i, if isReduction c.op then 2 else 1) else (w, 1)

/-- The 16 bytes of DETAIL of a stall (R432). -/
def CollRun.stallDetail (c : CollRun) : Bytes :=
  let a := c.awaited
  toLe 4 c.group ++ toLe 6 c.cseq ++ toLe 2 (a.1.headD 0) ++ toLe 2 a.1.length ++ toLe 1 a.2 ++ toLe 1 0

/-- STALL_TURNS of a collective: its block's, or else the default in force (R432, R440). -/
def State.stallTurnsOf (s : State) (c : CollRun) : Nat := if c.stallTurns = 0 then s.params.stallTurns else c.stallTurns

/-- COLL_STALL (R432): at each multiple of STALL_TURNS the stall is reported, once. -/
def execCollStall (h : Word) (s : State) : Host.Outcome State Fault Refusal :=
  match s.cmd h, s.coll h with
  | some m, some c =>
    when (s.serving && c.released && c.stall != 0 && c.reported != c.stall && c.stall % s.stallTurnsOf c == 0) s fun s =>
      let s := s.modColl h fun c => { c with reported := c.stall }
      let d := c.stallDetail
      let node := (c.members.getD ((c.awaited).1.headD 0) (0, 0)).1
      ((s.raise { code := 0x0901, ctx := some m.target, handle := some h, unit := 5, detail := [leAt d 0 8, leAt d 8 8] }).fmReport 4 node
        m.target d).bumpFw m.target 19 1
  | _, _ => idle s

/-- COLL_PUT_REPEAT (R433): a PUT answered RETRY or NO_WINDOW, or ended by TIMEOUT or UNREACHABLE, is sent again with the same TAG. -/
def execCollPutRepeat (h : Word) (tag : Nat) (s : State) : Host.Outcome State Fault Refusal :=
  match s.cmd h, s.coll h with
  | some m, some c =>
    match c.puts.find? fun u => u.tag == tag && u.again with
    | none => idle s
    | some u =>
      when s.serving s fun s =>
        let s := s.modColl h fun c => { c with puts := modWhere (fun v => v.tag == tag) (fun v => { v with status := none, repeats := v.repeats + 1 }) c.puts }
        (s.bumpFw m.target 18 1).sendCollPut m.target h c { u with status := none }
  | _, _ => idle s

/-- The stall count of a collective at a boundary: it grows where no message of the collective was accepted in the turn (R432). -/
def CollRun.stallOn (c : CollRun) : CollRun :=
  if !c.released || c.heard then { c with stall := 0, reported := 0, heard := false } else { c with stall := c.stall + 1 }

/-- Count the stalls of the released collectives at a boundary (R432). -/
def State.collStallCount (s : State) : State :=
  { s with cmds := s.cmds.map fun m => match m.work with
    | .coll c => { m with work := .coll c.stallOn }
    | _ => m }

/-- A node has been declared down (R436). -/
def State.collPeerDown (s : State) (h : Word) (node : Nat) : State :=
  match s.cmd h, s.coll h with
  | some _, some c =>
    let ranks := (List.range c.p).filter fun i => (c.members.getD i (0, 0)).1 == node
    let s := if ranks.isEmpty then s else s.modColl h fun c => { c with lost := addNew node c.lost }
    if ranks.isEmpty then s
    else if ranks.any fun i => i ∉ c.tableGot then s.modCmd h fun m => m.failWhole 0x05 0
    else
      let s := s.modColl h fun c => { c with puts := c.puts.map fun u => if u.rank ∈ ranks then { u with dropped := u.dropped || !u.isOver } else u }
      if isReduction c.op then
        (if ranks.any fun i => (c.got 2 i < c.workFrom i && !c.reduced) || c.got 1 i < c.dstFrom i then s.modCmd h fun m => m.failWhole 0x05 0 else s)
      else s.modCmd h fun m => ranks.foldl (fun m i => if c.op != 6 && !c.arrived i then m.failPart i 0x05 else m) m
  | _, _ => s

/-- Cancel a collective: its number does not become a tombstone, and nothing of it is sent any more (R438). -/
def State.collCancel (s : State) (h : Word) : State :=
  match s.cmd h, s.coll h with
  | some m, some c =>
    let s := s.modCmd h fun m => m.failWhole 0x0C 0
    let s := (s.collEnd h ((s.cmd h).getD m) { c with winOpen := false })
    if c.winOpen then s.collOpenNext m.target c.win else s
  | _, _ => s

end Sys2Proof.Machine
end

