-- ==== Sys2Proof/Machine/Fetch.lean ====
section
/-! DEFINITION. The rows of the rings: fetching descriptors, writing completion records, interrupts (R329 to R335, R340, R353 to R355). -/

namespace Sys2Proof.Machine

/-! ## Fetch -/

/-- Commands in the table that a ring's context, or the admin ring, shares (R340). -/
def State.tableLoad (s : State) (id : RingId) : Nat :=
  match id with
  | .ctx x _ => (s.cmdsOf x).length
  | .admin => (s.cmds.filter fun m => m.ring == .admin).length

/-- May a descriptor be fetched from a ring now (R330, R331, R340, R354)? -/
def State.canFetch (s : State) (id : RingId) : Bool :=
  s.ringService && (s.ring id).any fun r =>
    r.enabled && !r.stopped && r.prod != r.cons && r.room && s.tableLoad id < (if id = .admin then 64 else 1024)

/-- The command that a descriptor spells, entered with its handle (R334, R335). -/
def State.descCmd (s : State) (id : RingId) (r : Ring) (b : Bytes) : Cmd :=
  let target := match id with
    | .ctx x _ => x
    | .admin => leAt b 0x0F 1
  { handle := handleOf target (ringNo id) r.fetched, ring := id, target, op := leAt b 0 1, flags := leAt b 1 1
    turn := BitVec.ofNat 64 (leAt b 0x10 8), deadline := if (leAt b 1 1).testBit 4 then some (BitVec.ofNat 64 (leAt b 0x18 8)) else none
    deps := descDeps b, body := b.drop 64, order := s.cmdNo, fetchTurn := s.turn.count, nparts := partsAtFetch (leAt b 0 1) (b.drop 64) }

/-- Has order step 8 of a deadline's turn passed (R340)? -/
def State.deadlinePassed (s : State) (m : Cmd) : Bool := s.turn.st.counts && m.deadline.any fun d => d ≤ s.turn.count

/-- Has a CLOSE_CONTEXT of a context been fetched and not completed (R345)? -/
def State.closeFetched (s : State) (x : Nat) : Bool := s.cmds.any fun m => m.op == 0x02 && m.ring == .admin && m.target == x

/-- What happens to a command at its fetch: it completes at once, or stays in the table (R335, R340, R345, R378, R420). -/
def State.enter (s : State) (m : Cmd) (check : Option Nat) : State :=
  let h := m.handle
  let cx := s.ctx m.target
  let own := m.ring != .admin
  if own && (cx.closeCmd.isSome || s.closeFetched m.target) then (s.modCtx m.target fun cx => { cx with cancelled := cx.cancelled + 1 }).failCmd h 0x0C 0
  else match check with
    | some d => s.failCmd h 0x02 d
    | none =>
      if own && cx.st == .broken && m.op != 0x70 then s.failCmd h 0x02 0x06
      else if s.deadlinePassed m then s.failCmd h 0x04 0
      else if m.op = 0x52 then s.collFetch m.target m
      else if m.op = 0x02 && cx.st ∈ [.idle, .waiting, .running, .broken, .recoverable] && cx.closeCmd.isNone then
        s.modCtx m.target fun cx => { cx with closeCmd := some h }
      else s

/-- Copy one descriptor from its ring, check it and enter it (R330, R335). -/
def State.fetchDesc (s : State) (id : RingId) (d : Bytes) : State :=
  match s.ring id with
  | none => s
  | some r =>
    let b := fitTo 128 d
    let m := s.descCmd id r b
    let check := s.fetchCheck id r.vqp (r.fetched % 2 ^ 48) b
    let s := s.hostAsk r.func (r.sqBase + 128 * (r.cons.toNat % 2 ^ r.sqLog)) 128 false true
    let s := (s.modRing id fun r => { r with cons := r.cons + 1, fetched := r.fetched + 1, retrying := false }).bumpRing id 0 1
    ({ s with cmds := s.cmds ++ [m], cmdNo := s.cmdNo + 1 } : State).enter m check

/-- DESCRIPTOR_FETCH (R330, R335); a failed read is retried once (R354). -/
def execDescriptorFetch (r : RingId) (d : Option Bytes) (s : State) : Host.Outcome State Fault Refusal :=
  when (s.canFetch r && (s.ring r).any fun q => !q.retrying) s fun s => match d with
    | some b => s.fetchDesc r b
    | none => s.modRing r fun q => { q with retrying := true }

/-- DESCRIPTOR_READ_RETRY (R354): the second failure stops the ring. -/
def execDescriptorReadRetry (r : RingId) (d : Option Bytes) (s : State) : Host.Outcome State Fault Refusal :=
  when (s.ringService && (s.ring r).any fun q => q.enabled && !q.stopped && q.retrying) s fun s => match d with
    | some b => s.fetchDesc r b
    | none => s.stopRing r 0

/-! ## Completion records -/

/-- The context reset of a context is over once the records of its commands have been written (R481). -/
def State.resetWritten (s : State) (x : Nat) (h : Word) : State :=
  match (s.ctx x).resetting with
  | none => s
  | some l =>
    let l := l.filter (· != h)
    let s := s.modCtx x fun cx => { cx with resetting := if l.isEmpty then none else some l }
    if l.isEmpty then s.raiseCtx x 0x0704 [] else s

/-! ## The admin ring (R328, R332, R552) -/

/-- Set the admin ring up from its header: an unreadable header leaves it not set up and is not written back (R328, R332). -/
def State.setupAdmin (s : State) (hdr : Option Bytes) : State :=
  match hdr with
  | none => s
  | some b =>
    let b := fitTo 136 b
    let c := s.headerCheck 0 (b.take 128)
    let s := s.headerBack 0 s.regs.adminHdr.toNat c.1 c.2.1 c.2.2
    if c.1 = 0 then s.installRing .admin (ringFrom 0 c.2.2 b) else s

/-- Take up a write of ENABLE = 1 that was held: before READY, in keeper mode, or while an earlier admin ring was ending. -/
def State.takeAdmin (s : State) : State :=
  match s.regs.adminHeld with
  | none => s
  | some hdr =>
    if (s.ring .admin).isSome || !s.ringService then s
    else ({ s with regs := { s.regs with adminHeld := none } } : State).setupAdmin hdr

/-- The admin ring ends once it is disabled and its records are written (R328). -/
def State.adminOver (s : State) : State :=
  match s.ring .admin with
  | none => s
  | some r =>
    if !r.enabled && r.ready.isEmpty && !(s.cmds.any fun m => m.ring == .admin) then
      ({ s with rings := Tab.del s.rings (ringKey .admin) } : State).takeAdmin else s

/-- Write the oldest ready record of a ring, with what follows once it is written: a context reset may be over, or the admin ring. -/
def State.putRecord (s : State) (id : RingId) (q : Ring) (c : Cpl) : State :=
  let s := s.writeRecord id q c
  match id with
  | .ctx x _ => s.resetWritten x c.handle
  | .admin => s.adminOver

/-- COMPLETION_WRITE (R331, R347, R353); a write that fails stops the ring (R354). -/
def execCompletionWrite (r : RingId) (ok : Bool) (s : State) : Host.Outcome State Fault Refusal :=
  match s.ring r with
  | none => idle s
  | some q =>
    match q.ready with
    | [] => idle s
    | c :: _ =>
      when (s.serving && s.hostWrites && !q.stopped && q.room) s fun s =>
        if !ok then s.stopRing r 1 else s.putRecord r q c

/-- IRQ_TIMER_EXPIRY (R353): the oldest unannounced record is IRQ_TIMER µs old. -/
def execIrqTimerExpiry (r : RingId) (s : State) : Host.Outcome State Fault Refusal :=
  match s.ring r with
  | none => idle s
  | some q => when (s.serving && q.unannounced != 0) s fun s => s.sendMsix q.func q.vector

end Sys2Proof.Machine
end

