-- ==== Sys2Proof/Machine/Close.lean ====
section
/-! DEFINITION. Cancelling the commands of a context, context resets, and the closing and scrubbing of contexts (R345, R378, R379, R481,
R485, R523, R529, R584). -/

namespace Sys2Proof.Machine

/-! ## Cancelling (R345, R349, R481) -/

/-- A load that ends before its time leaves its generation INCOMPLETE (R279, R291). -/
def State.dropLoad (s : State) (x : Nat) (l : LoadRun) : State :=
  s.modGenBody x l.gen fun b => if b.st == .loading then { b with st := .incomplete } else b

/-- Complete a command of a context as CANCELLED, or with another status for the whole of it: running kernels stop (R149), collectives are
cancelled (R438). -/
def State.cancelCmd (s : State) (m : Cmd) (status detail : Nat) : State :=
  let x := m.target
  match (s.ctx x).kernel m.handle with
  | some _ =>
    let s := s.failKernel x m.handle status detail
    match (s.ctx x).kernel m.handle with
    | some r => (s.finishKernel x r false).settleCtx x
    | none => s
  | none =>
    match m.work with
    | .coll _ => (s.modCmd m.handle fun m => m.failWhole status detail).collCancel m.handle
    | .load l => (s.dropLoad x l).failCmd m.handle status detail
    | _ => s.failCmd m.handle status detail

/-- Cancel every command on a context's own rings; how many is counted for its CLOSE record (R533). -/
def State.cancelAll (s : State) (x status detail : Nat) : State :=
  let l := s.cmdsOf x
  (l.foldl (fun s m => s.cancelCmd m status detail) s).modCtx x fun cx => { cx with cancelled := cx.cancelled + l.length }

/-- Saved kernel state is discarded, and the context is idle (R481). -/
def State.discardKernels (s : State) (x : Nat) : State :=
  let s := s.stopKernels x
  let s := s.modCtx x fun cx => { cx with kernels := [], lcores := cx.lcores.map fun l => (l.1, { l.2 with saved := none }) }
  (s.freeCores x).modCtx x fun cx => if cx.st == .running || cx.st == .waiting then { cx with st := .idle } else cx

/-- A context reset (R481): its event comes once the records of its commands have been written. -/
def State.resetCtx (s : State) (x : Nat) : State :=
  let hs := (s.cmdsOf x).map fun m => m.handle
  let s := (s.cmdsOf x).foldl (fun s m => s.cancelCmd m 0x0C 0) s
  let s := s.discardKernels x
  if hs.isEmpty then s.raiseCtx x 0x0704 [] else s.modCtx x fun cx => { cx with resetting := some hs }

/-- Is the CLOSE_CONTEXT of a context released (R360)? -/
def State.closeReleased (s : State) (cx : Ctx) : Bool := (cx.closeCmd.bind s.cmd).any fun m => m.st == .released

/-- May a context be reset: it is open, not closing or recoverable, and no reset of it is in progress (R584)? -/
def State.mayReset (s : State) (x : Nat) : Bool :=
  (s.ctx x).st ∈ [.idle, .waiting, .running, .broken] && (s.ctx x).resetting.isNone && !s.closeReleased (s.ctx x)

/-! ## Closing (R345, R379, R529) -/

/-- Messages accepted into a context's windows are dropped with the windows. -/
def State.dropWindows (s : State) (x : Nat) : State :=
  (s.modCtx x fun cx => { cx with windows := [], tombs := [] }) |> fun s =>
    { s with fabric := { s.fabric with inOps := s.fabric.inOps.filter fun o => o.ctx != x
                                       outOps := s.fabric.outOps.filter fun o => o.ctx != x } }

/-- Take a context's rings out of service. -/
def State.dropRings (s : State) (x : Nat) : State := { s with rings := s.rings.filter fun e => e.1 / 16 != x || e.1 = 4096 }

/-- The CLOSE record and its seal; the ledger is then kept as a closed one (R529). -/
def State.closeLedger (s : State) (x : Nat) (h : Option Word) : State :=
  let gov := s.gov.st.code
  let s := s.appendRec x { kind := 0x08, handle := h, gov, body := toLe 4 (s.ctx x).cancelled }
  let s := s.seal x 8 h gov
  s.keepClosed (s.ctx x).ledger

/-- Close a context whose waits are over: cores freed, windows closed, ledger closed; its scrub then runs (R379). `kind` is the scrub
record's. -/
def State.closeCtx (s : State) (x kind : Nat) (h : Option Word) : State :=
  let broken := (s.ctx x).st == .broken
  let s := (s.discardKernels x).dropWindows x
  let s := if broken then s else s.closeLedger x h
  (s.dropRings x).modCtx x fun cx => { cx with st := .scrubbing, scrubKind := kind, opening := none, resetting := none }

/-- Pages that a context holds (R379, R523). -/
def State.ownPages (s : State) (x : Nat) : List Nat := s.mem.pagesOf fun u => u.owner == some x

/-- SFLAGS of a context's scrub record (R524). -/
def State.scrubFlags (s : State) (x : Nat) : Nat :=
  let cx := s.ctx x
  let spilled := cx.seqs.any fun q => !(q.2.spilledOnes).isEmpty
  (if cx.protected then 1 + 8 else 0) + 2 + 4 + (if !cx.protected && spilled then 16 else 0)

/-- The scrub of a context is finished: pages, shelves and slots are given back, the record is appended, and the number is free
(R379, R523); a waiting CLOSE_CONTEXT completes (R345). -/
def State.scrubCtx (s : State) (x : Nat) : State :=
  let cx := s.ctx x
  let pages := s.ownPages x
  let flags := s.scrubFlags x
  let shelves := ((cx.lcores.filter fun l => l.2.home.isSome).map fun _ => cx.req.shelves).sum
  let h := if cx.scrubKind = 0 then cx.closeCmd.getD 0 else 0
  let s := s.freePages pages
  let s : State := { s with sec := { s.sec with mslots := s.sec.mslots.filter fun e => !(e.2.2 == x && e.2.1 != 2) }
                            ctxs := Tab.del s.ctxs x
                            ev := { s.ev with perCtx := Tab.del s.ev.perCtx x } }
  let s := s.appendScrub cx.scrubKind x cx.req.func cx.slotKey flags pages shelves h
  match cx.closeCmd with
  | none => s
  | some c => if cx.orphan then s else if cx.scrubKind = 0 then s.okCmd c 0 else s.failCmd c 0x0C 0x06

/-- SCRUB_DONE (R379, R523 to R525). -/
def execScrubDone (x : Nat) (s : State) : Host.Outcome State Fault Refusal :=
  when (s.serving && (s.ctx x).st == .scrubbing) s fun s => s.scrubCtx x

end Sys2Proof.Machine
end

