-- ==== Sys2Proof/Machine/Gens.lean ====
section
/-! DEFINITION. Loading, verification, storage and repair of generations and reference collections (R274 to R283, R289, R291, R292, R296 to
R299, R509 to R513). -/

namespace Sys2Proof.Machine

/-! ## AES-256-GCM over the opaque block cipher (R510) -/

/-- A 16-byte block as the number of the cipher, first byte most significant. -/
def gcmBlock (b : Bytes) : BitVec 128 := BitVec.ofNat 128 ((fitTo 16 b).foldl (fun a x => a * 256 + x.toNat) 0)

/-- The bytes of a block. -/
def gcmBytes (v : BitVec 128) : Bytes := (List.range 16).map fun i => (v >>> (8 * (15 - i))).truncate 8

/-- Steps of the product of GCM in GF(2^128). -/
def gcmLoop (x : BitVec 128) : Nat → BitVec 128 → BitVec 128 → BitVec 128
  | 0, _, z => z
  | n + 1, v, z =>
    let z := if x.getLsbD n then z ^^^ v else z
    let v' := v >>> 1
    gcmLoop x n (if v.getLsbD 0 then v' ^^^ BitVec.ofNat 128 (0xE1 * 2 ^ 120) else v') z

/-- The blocks of a byte string, the last one filled up with zeros. -/
def gcmBlocks (b : Bytes) : List (BitVec 128) := (List.range (ceilDiv b.length 16)).map fun i => gcmBlock ((b.drop (16 * i)).take 16)

/-- GHASH over the additional data and the ciphertext. -/
def ghash (h : BitVec 128) (aad c : Bytes) : BitVec 128 :=
  (gcmBlocks aad ++ gcmBlocks c ++ [BitVec.ofNat 128 (8 * aad.length * 2 ^ 64 + 8 * c.length)]).foldl
    (fun y b => gcmLoop (y ^^^ b) 128 h 0) 0

/-- Decrypt under a key, with the check of the tag. -/
def gcmOpen (key iv aad c tag : Bytes) : Option Bytes :=
  let e := Config.aes256 key
  let ctr : Nat → BitVec 128 := fun i => gcmBlock (iv ++ (toLe 4 i).reverse)
  let plain := (List.range (ceilDiv c.length 16)).flatMap fun i =>
    (((c.drop (16 * i)).take 16).zip (gcmBytes (e (ctr (i + 2))))).map fun p => p.1 ^^^ p.2
  if gcmBytes (ghash (e 0) aad c ^^^ e (ctr 1)) == tag then some plain else none

/-! ## Tensors of an image (R268 to R271, R278, R283) -/

/-- The code that stands for zero beyond a tensor's edge (R268). -/
def zeroCode (t : Tensor) : Nat := if t.fmt ≤ 1 then t.zp else 0

/-- The headers of a tensor's blocks with the payload offset of each. -/
def Tensor.offsets (t : Tensor) (read : Nat → Nat → Bytes) : List (Nat × Nat) :=
  ((List.range (t.blocks 64)).foldl (fun (a : List (Nat × Nat) × Nat) i =>
    let v := leAt (read (t.hdrOff + 4 * i) 4) 0 4
    ((v, a.2) :: a.1, a.2 + 16 * (blockHdrOf v).len)) ([], 0)).1.reverse

/-- The elements of one block by its header and payload; none where the block breaks R269 to R271. -/
def blockCodes (m : Manifest) (t : Tensor) (v : Nat) (pay : Bytes) : Option (List Nat) :=
  let h := blockHdrOf v
  if !blockHdrOk t.fmt v then none
  else if !h.coded then some (expandRaw t.fmt pay)
  else match Tab.opt m.tables h.slot with
    | none => none
    | some tab => if tab.tgen != h.tgen || tab.fmt != t.fmt then none
      else match expandCoded t.fmt tab.lens pay with
        | some (codes, true) => some codes
        | _ => none

/-- The elements of every block of a tensor, if it passes the checks of R278. -/
def Tensor.decode (m : Manifest) (t : Tensor) (read : Nat → Nat → Bytes) : Option (List (List Nat)) :=
  let l := t.offsets read
  let total := (l.map fun e => 16 * (blockHdrOf e.1).len).sum
  let runs := (List.range (ceilDiv l.length 64)).all fun r => leAt (read (t.runOff + 8 * r) 8) 0 8 == ((l[64 * r]?).map fun e => e.2).getD 0
  if total != t.payBytes || !runs then none
  else l.mapM fun e => blockCodes m t e.1 (read (t.payOff + e.2) (16 * (blockHdrOf e.1).len))

/-- The stored bytes of a tensor expanded at load, its panels W columns wide (R283). -/
def Tensor.expandAtLoad (t : Tensor) (w : Nat) (codes : List (List Nat)) : Bytes :=
  let per := ceilDiv t.k 4
  let at_ : Nat → Nat → Nat := fun k c => ((codes.getD (c / 64 * per + k / 4) []).getD (64 * (k % 4) + c % 64) (zeroCode t))
  (List.range (t.blocks w)).flatMap fun b =>
    rawBlock t.fmt ((List.range 256).map fun i =>
      let k := 4 * (b % per) + i / 64
      let c := w * (b / per) + i % 64
      if i % 64 < w && c < t.n && k < t.k then at_ k c else zeroCode t)

/-- Shards that a tensor touches. -/
def Tensor.shards (m : Manifest) (t : Tensor) : List Nat :=
  (t.regions.flatMap fun r => if r.2 = 0 then [] else
    (List.range ((r.1 + r.2 - 1) / 2 ^ m.shardLog2 - r.1 / 2 ^ m.shardLog2 + 1)).map fun i => r.1 / 2 ^ m.shardLog2 + i).eraseDups

/-- Length of a shard (R264). -/
def Manifest.shardLen (m : Manifest) (i : Nat) : Nat := min ((i + 1) * 2 ^ m.shardLog2) m.imageBytes - i * 2 ^ m.shardLog2

/-- Where each shard's bytes are stored: as they arrived; or, expanded at load, the blocks of each tensor shared out over the shards of its
payload in proportion to their bytes (log entry 20). -/
def storedSpans (m : Manifest) (atUse : Bool) (w : Nat) : List (Nat × Nat × Nat) :=
  if atUse then (List.range m.shards.length).map fun i => (i, i * 2 ^ m.shardLog2, m.shardLen i)
  else m.tensors.zipIdx.flatMap fun e =>
    let t := e.1
    let n := t.blocks w
    let p := max 1 t.payBytes
    let cut : Nat → Nat := fun off => min n (n * (min (max off t.payOff) (t.payOff + p) - t.payOff) / p)
    t.shards m |>.filterMap fun i =>
      let lo := cut (i * 2 ^ m.shardLog2)
      let hi := cut ((i + 1) * 2 ^ m.shardLog2)
      if lo < hi then some (i, storedBase m w e.2 + lo * rawBytes t.fmt, (hi - lo) * rawBytes t.fmt) else none

/-- The stored bytes of a shard. -/
def State.shardBytes (s : State) (b : GenBody) (i : Nat) : Bytes :=
  (b.spans.filter fun e => e.1 == i).flatMap fun e => s.imagePeek b e.2.1 e.2.2

/-- The digest against which the digest scrubber holds a shard (R280). -/
def GenBody.storedDigest (b : GenBody) (i : Nat) : Digest :=
  if b.atUse then (((b.manifest.bind fun m => m.shards[i]?).map fun e => e.1).getD 0) else Tab.look b.expanded 0 i

/-- Is a shard good: outcome 0x00 or 0x05 (R277)? -/
def GenBody.good (b : GenBody) (i : Nat) : Bool := Tab.look b.shards 0 i == 1 || Tab.look b.shards 0 i == 6

/-- Shards of a generation. -/
def GenBody.count (b : GenBody) : Nat := (b.manifest.map fun m => m.shards.length).getD 0

/-- Good shards. -/
def GenBody.goodCount (b : GenBody) : Nat := ((List.range b.count).filter b.good).length

/-! ## Placement (R289, R601) -/

/-- Pages of the stored image that some layers take. -/
def layerPages (m : Manifest) (atUse : Bool) (w : Nat) (p : Nat → Bool) : List Nat :=
  pagesOf ((m.tensors.zipIdx.filter fun e => p e.1.layer).flatMap fun e => storedRegions m atUse w e.2)

/-- Stored bytes of a layer. -/
def layerBytes (m : Manifest) (atUse : Bool) (w layer : Nat) : Nat :=
  ((m.tensors.zipIdx.filter fun e => e.1.layer == layer).flatMap fun e => (storedRegions m atUse w e.2).map fun r => r.2).sum

/-- How a generation is placed: stored pages in the device and in the slower tier, pages of the prefetch buffer, and the layers in the
slower tier. -/
structure GenPlan where
  dev    : List Nat
  tier   : List Nat
  buffer : Nat
  layers : List Nat
  deriving DecidableEq, Repr

/-- The plan in which the first n layers lie in the device. -/
def planAt (m : Manifest) (atUse : Bool) (w n : Nat) : GenPlan :=
  let isTier : Nat → Bool := fun l => n ≤ l && l < m.layers
  let inDev := layerPages m atUse w fun l => !isTier l
  let tier := (layerPages m atUse w isTier).filter fun p => p ∉ inDev
  let layers := ((List.range m.layers).filter isTier).filter fun l => layerBytes m atUse w l != 0
  { dev := (List.range (ceilDiv (storedBytes m atUse w) Config.page)).filter fun p => p ∉ tier
    tier := sortBy id tier, layers
    buffer := ceilDiv (2 * (layers.map (layerBytes m atUse w)).foldl max 0) Config.page }

/-- The plan with the most layers in the device that the budget holds (R289). -/
def planGen (m : Manifest) (atUse : Bool) (w budget : Nat) : Nat → Option GenPlan
  | 0 => let p := planAt m atUse w 0
         if budget = 0 || (p.dev.length + p.buffer) * Config.page ≤ budget then some p else none
  | n + 1 =>
    let p := planAt m atUse w (n + 1)
    if budget = 0 || (p.dev.length + p.buffer) * Config.page ≤ budget then some p else planGen m atUse w budget n

/-- The pages of the tier extents of a function, at their addresses in the model. -/
def tierPages (f : Nat) (l : List (Nat × Nat)) : List Nat :=
  l.flatMap fun e => (List.range (e.2 / Config.page)).map fun i => (tierBase + hostKey f e.1) / Config.page + i

/-! ## Loads in progress -/

/-- What a load fills: a generation of a context, or a reference collection. -/
inductive LoadAt where
  | gen (x g : Nat)
  | coll (id : Nat)
  deriving DecidableEq, Repr

/-- The name under which management's load of a collection stands among the loads: a handle of ring 0xFE, which no command has (log
entry 21). -/
def collHandle (id : Nat) : Word := BitVec.ofNat 64 (0xFE * 2 ^ 48 + id)

/-- See `collHandle`. -/
def isCollLoad (h : Word) : Bool := field h 48 8 == 0xFE

/-- The collection of such a name. -/
def loadColl (h : Word) : Nat := field h 0 48

/-- The load in progress under a handle. -/
def State.loadRun (s : State) (h : Word) : Option LoadRun :=
  if isCollLoad h then (Tab.opt s.colls (loadColl h)).bind fun k => k.load
  else (s.cmd h).bind fun m => match m.work with
    | .load l => if m.st == .released then some l else none
    | _ => none

/-- Change it. -/
def State.modLoad (s : State) (h : Word) (f : LoadRun → LoadRun) : State :=
  if isCollLoad h then { s with colls := Tab.change s.colls (loadColl h) fun k => { k with load := k.load.map f } }
  else s.modCmd h fun m => match m.work with
    | .load l => { m with work := .load (f l) }
    | _ => m

/-- What it fills. -/
def State.loadAt (s : State) (h : Word) (l : LoadRun) : LoadAt :=
  if isCollLoad h then .coll (loadColl h)
  else match l.ref with
    | some id => .coll id
    | none => .gen (((s.cmd h).map fun m => m.target).getD 0) l.gen

/-- The body that a load fills. -/
def State.bodyAt (s : State) : LoadAt → Option GenBody
  | .gen x g => (Tab.opt (s.ctx x).gens g).map fun n => n.body
  | .coll id => (Tab.opt s.colls id).map fun k => k.body

/-- Change it. -/
def State.modBody (s : State) (a : LoadAt) (f : GenBody → GenBody) : State :=
  match a with
  | .gen x g => s.modCtx x fun cx => { cx with gens := Tab.change cx.gens g fun n => { n with body := f n.body } }
  | .coll id => { s with colls := Tab.change s.colls id fun k => { k with body := f k.body } }

/-- The context that a load serves. -/
def LoadAt.ctx : LoadAt → Option Nat
  | .gen x _ => some x
  | .coll _ => none

/-- The function whose addresses a load's sources and tier extents are (R315); a collection's are F0's. -/
def State.loadFunc (s : State) (a : LoadAt) : Nat := ((a.ctx).map fun x => (s.ctx x).req.func).getD 0

/-- Pages given to a generation or collection. -/
def State.genPages (s : State) (a : LoadAt) : List Nat :=
  s.mem.pagesOf fun u => match a, u with
    | .gen x g, .gen y k => x == y && g == k
    | .coll id, .coll k => id == k
    | .coll id, .collReplica k => id == k
    | _, _ => false

/-- Take pages for it (R601). -/
def State.takeGen (s : State) (a : LoadAt) (n : Nat) : Option (State × List Nat) :=
  match a with
  | .gen x g => s.takePrivate x n (.gen x g)
  | .coll id =>
    let p := ((Tab.opt s.colls id).map fun k => k.part).getD 0
    (s.freeOf ((s.partQuads p).map s.localRange) n).map fun l => (s.giveOut l (.coll id), l)

/-- Map the stored pages of a body in a context, read only (R297, R511). -/
def Ctx.mapBody (cx : Ctx) (va : Nat) (b : GenBody) : Ctx :=
  b.pages.foldl (fun cx e => cx.mapPages (va + e.1 * Config.page) b.slot false false (decide (tierBase / Config.page ≤ e.2)) [e.2]) cx

/-- The pages of a context's address space that a body mapped at an address takes. -/
def GenBody.vaPages (b : GenBody) (va : Nat) : List Nat := b.pages.map fun e => va / Config.page + e.1

/-- Where a generation of a context is mapped. -/
def State.genVa (s : State) (x g : Nat) : Nat := genBase (((Tab.opt (s.ctx x).gens g).map fun n => n.va).getD 0)

/-- Remove a generation of a context: its pages are scrubbed and given back, its slot released. The pages are answered. -/
def State.discardGen (s : State) (x g : Nat) : State × List Nat :=
  match Tab.opt (s.ctx x).gens g with
  | none => (s, [])
  | some n =>
    let pages := s.genPages (.gen x g)
    let b := ((s.genBody x g).map fun b => b.pages).getD []
    let s := s.modCtx x fun cx => b.foldl (fun cx e => cx.unmapPages (genBase n.va + e.1 * Config.page) 1) { cx with gens := Tab.del cx.gens g }
    let s := s.dropTlb x
    let s := s.freePages pages
    (if n.ref.isNone && n.body.slot != (s.ctx x).slotKey then s.dropSlot n.body.slot else s, pages)

/-- Empty a collection again after a load that kept nothing. -/
def State.discardColl (s : State) (id : Nat) : State :=
  let s := s.freePages (s.genPages (.coll id))
  { s with colls := Tab.change s.colls id fun k => { k with body := {}, load := none, replica := false, replicaPages := [] } }

/-- A load ends with nothing loaded (R277). A Resume leaves its generation as it was. -/
def State.rejectLoad (s : State) (h : Word) (l : LoadRun) (status detail : Nat) : State :=
  let a := s.loadAt h l
  let s := if l.resume then s.modBody a fun b => if b.st == .loading then { b with st := .incomplete } else b
    else match a with
      | .gen x g => (s.discardGen x g).1
      | .coll id => s.discardColl id
  if isCollLoad h then { s with colls := Tab.change s.colls (loadColl h) fun k => { k with load := none } }
  else (s.modCmd h fun m => { m with failed := [], value := 0 }).failCmd h status detail

/-! ## The end of a load (R278, R279) -/

/-- The image bytes of a generation that is being loaded. -/
def State.sourceBytes (s : State) (b : GenBody) (off n : Nat) : Bytes :=
  if b.atUse then s.imagePeek b off n else Tab.span b.image 0 off n

/-- The shards that the tensors failing R278 touch: only tensors all of whose shards are good are checked. -/
def State.badTensors (s : State) (b : GenBody) (m : Manifest) : List Nat :=
  ((m.tensors.filter fun t => (t.shards m).all b.good && (t.decode m (s.sourceBytes b)).isNone).flatMap fun t => t.shards m).eraseDups

/-- Store a generation expanded at load, and note the digests of what is stored (R280, R282, R283). -/
def State.expandGen (s : State) (a : LoadAt) (h : Option Word) (b : GenBody) (m : Manifest) : State :=
  let s := m.tensors.zipIdx.foldl (fun s e =>
    match e.1.decode m (s.sourceBytes b) with
    | some codes => s.imageWrite a.ctx h b (storedBase m b.width e.2) (e.1.expandAtLoad b.width codes)
    | none => s) s
  s.modBody a fun b => { b with expanded := (List.range b.count).map fun i => (i, sha512 (s.shardBytes b i)) }

/-- Write the status array of a load, one byte per shard (R277): false where it cannot be written. -/
def State.writeStatus (s : State) (h : Word) (va : Nat) (b : GenBody) : Option State :=
  match s.cmd h with
  | none => some s
  | some m => s.vwrite m.target (some h) {} va ((List.range b.count).map fun i => BitVec.ofNat 8 (Tab.look b.shards 4 i - 1)) false

/-- Complete a load whose shards have all been read or given up. -/
def State.endLoad (s : State) (h : Word) (l : LoadRun) : State :=
  let a := s.loadAt h l
  match s.bodyAt a with
  | none => s
  | some b =>
    match b.manifest with
    | none => s
    | some m =>
      if !((List.range b.count).all fun i => Tab.look b.shards 0 i != 0) then s
      else
        let bad := s.badTensors b m
        if !bad.isEmpty then
          let b' := { b with shards := bad.foldl (fun t i => Tab.put t 0 i 5) b.shards }
          let s := (s.writeStatus h l.status b').getD s
          s.rejectLoad h { l with resume := false } 0x02 0
        else
          let all := b.goodCount == b.count
          let held := b.st == .held
          let s := if all && !b.atUse then s.expandGen a (if isCollLoad h then none else some h) b m else s
          let s := if held then (if all then match a with
              | .coll id => { s with colls := Tab.change s.colls id fun k => { k with readyNext := true } }
              | _ => s else s)
            else s.modBody a fun b => { b with st := if all then .ready else .incomplete }
          if isCollLoad h then { s with colls := Tab.change s.colls (loadColl h) fun k => { k with load := none } }
          else
            let fail : Cmd → Cmd := fun m => { m with
              value := BitVec.ofNat 64 b.goodCount
              failed := ((List.range b.count).filter fun i => !b.good i).map fun i => (i, 0x0A) }
            match s.writeStatus h l.status b with
            | some s => (s.modCmd h fail).finish h
            | none => (s.modCmd h fun m => { fail m with failed := [] }).failCmd h 0x03 0x0A

/-! ## MANIFEST_ARRIVAL, SHARD_ARRIVAL, SHARD_READ_TIMEOUT -/

/-- Give a loading generation its pages and mapping by a plan; none if there is no space. -/
def State.placeGen (s : State) (a : LoadAt) (l : LoadRun) (m : Manifest) (slot : Nat) : Option State :=
  let w := ((s.bodyAt a).map fun b => b.width).getD 64
  match planGen m l.atUse w l.budget m.layers with
  | none => none
  | some p =>
    if (tierPages (s.loadFunc a) l.tier).length < p.tier.length then none
    else (s.takeGen a (p.dev.length + p.buffer)).bind fun r =>
      let pages := (p.dev.zip r.2 ++ p.tier.zip (tierPages (s.loadFunc a) l.tier)).foldl (fun t e => Tab.ins t e.1 e.2) []
      let s := r.1.modBody a fun b => { b with
        manifest := some m, digest := l.digest, slot, pages, tierLayers := p.layers, buffer := r.2.drop p.dev.length, spans := storedSpans m l.atUse w }
      match a with
      | .gen x g => match s.bodyAt a with
        | some b => (s.growTables x (b.vaPages (s.genVa x g))).map fun s => s.modCtx x fun cx => cx.mapBody (s.genVa x g) b
        | none => some s
      | .coll _ => some s

/-- KEY_RELEASE_FAIL (R509). -/
def State.keyFail (s : State) (a : LoadAt) (h : Word) : State :=
  s.raise { code := 0x0D02, ctx := a.ctx, handle := if isCollLoad h then none else some h, unit := 12 }

/-- The slot under which a generation with a good manifest is stored (R511, R513); none where no slot is free. -/
def State.genSlot (s : State) (a : LoadAt) (m : Manifest) : State × Option Nat :=
  match a with
  | .coll id =>
    let n := ((Tab.opt s.colls id).map fun k => k.slot).getD 0
    (s, if m.encrypted && n = 0 then none else some n)
  | .gen x _ => if m.encrypted && !(s.ctx x).protected then s.takeSlot 1 x else (s, some (s.ctx x).slotKey)

/-- A manifest that reads well: it is checked in the order of R277. -/
def State.takeManifest (s : State) (h : Word) (l : LoadRun) (d : Bytes) : State :=
  let a := s.loadAt h l
  let again := l.resume && (s.bodyAt a).any fun b => b.manifest.isSome
  if sha512 d != l.digest then s.rejectLoad h l 0x0B 0
  else match checkManifest d with
    | .inl st => s.rejectLoad h l st 0
    | .inr m =>
      if l.sources.length != m.shards.length then s.rejectLoad h l 0x02 0x05
      else if m.encrypted && l.key.isNone then (s.keyFail a h).rejectLoad h l 0x03 0
      else
        let r := if again then (s, some 0) else s.genSlot a m
        match r.2 with
        | none => r.1.rejectLoad h l 0x0D 0
        | some slot =>
          match if again then some r.1 else r.1.placeGen a l m slot with
          | none => (r.1.modBody a fun b => { b with slot }).rejectLoad h l 0x0D 0
          | some s =>
            let s := s.modBody a fun b => { b with shards := ((List.range b.count).filter b.good).map fun i => (i, 6) }
            let s := s.modLoad h fun l => { l with manifestDone := true, slot }
            let s := if isCollLoad h then s else s.modCmd h fun c => { c with nparts := m.shards.length }
            s.endLoad h { l with manifestDone := true, slot }

/-- What a source of n bytes delivers (R276): from host memory or the slower tier, the operand; from the CXL.mem window what memory holds, and
nothing where a frame is not mapped or a codeword is poisoned. -/
def State.readSource (s : State) (a : LoadAt) (src : Nat × Nat) (n : Nat) (d : Option Bytes) : State × Option Bytes :=
  match d with
  | none => (s, none)
  | some d =>
    if src.2 != 1 then (s.hostAsk (s.loadFunc a) src.1 n false true, some (fitTo n d))
    else (pieces src.1 n).foldl (fun (a : State × Option Bytes) p => match a.2, s.windowDpa p.1 with
      | some b, .inr dpa =>
        let r := a.1.readPiece none none {} (dpa, p.2, 0)
        (r.1, if r.2.2 then none else some (b ++ r.2.1))
      | _, _ => (a.1, none)) (s, some [])

/-- MANIFEST_ARRIVAL (R276, R277); a manifest that its source does not deliver cannot be loaded (log entry 22). -/
def execManifestArrival (h : Word) (d : Option Bytes) (s : State) : Host.Outcome State Fault Refusal :=
  match s.loadRun h with
  | none => idle s
  | some l => when (s.serving && !l.manifestDone) s fun s =>
      let r := s.readSource (s.loadAt h l) l.manifestSrc l.manifestBytes d
      match r.2 with
      | none => r.1.rejectLoad h l 0x03 0x0A
      | some d => r.1.takeManifest h l d

/-- The outcome of a shard read from its source, and its plaintext (R277, R510). -/
def shardOutcome (l : LoadRun) (m : Manifest) (i : Nat) (d : Option Bytes) : Nat × Bytes :=
  match d, m.shards[i]? with
  | some d, some e =>
    let d := fitTo (m.shardLen i) d
    let plain := if m.encrypted then gcmOpen (l.key.getD []) e.2.1 (toLe 4 i ++ digestBytes l.digest) d e.2.2 else some d
    match plain with
    | none => (2, [])
    | some p => if sha512 p = e.1 then (0, p) else (1, [])
  | _, _ => (3, [])

/-- Take a shard with its outcome. -/
def State.takeShard (s : State) (h : Word) (l : LoadRun) (i : Nat) (d : Option Bytes) : State :=
  let a := s.loadAt h l
  match s.bodyAt a with
  | none => s
  | some b =>
    match b.manifest with
    | none => s
    | some m =>
      let r := shardOutcome l m i d
      let s := if r.1 != 0 then s
        else if b.atUse then s.imageWrite a.ctx (if isCollLoad h then none else some h) b (i * 2 ^ m.shardLog2) (wholeCws r.2)
        else s.modBody a fun b => { b with image := Tab.fill b.image 0 (i * 2 ^ m.shardLog2) r.2 }
      (s.modBody a fun b => { b with shards := Tab.put b.shards 0 i (r.1 + 1) }).endLoad h l

/-- Is a shard of a load still to come? -/
def State.shardDue (s : State) (h : Word) (i : Nat) : Bool :=
  (s.loadRun h).any fun l => l.manifestDone && (s.bodyAt (s.loadAt h l)).any fun b => i < b.count && Tab.look b.shards 0 i == 0

/-- The source of a shard of a load, and the shard's length. -/
def State.shardSource (s : State) (h : Word) (l : LoadRun) (i : Nat) : (Nat × Nat) × Nat :=
  (l.sources.getD i (0, 0), (((s.bodyAt (s.loadAt h l)).bind fun b => b.manifest).map fun m => m.shardLen i).getD 0)

/-- Take a shard from its source (R276). -/
def State.arriveShard (s : State) (h : Word) (l : LoadRun) (i : Nat) (d : Option Bytes) : State :=
  let e := s.shardSource h l i
  let r := s.readSource (s.loadAt h l) e.1 e.2 d
  r.1.takeShard h l i r.2

/-- SHARD_ARRIVAL (R276 to R278, R510, R511). -/
def execShardArrival (h : Word) (i : Nat) (d : Option Bytes) (s : State) : Host.Outcome State Fault Refusal :=
  match s.loadRun h with
  | none => idle s
  | some l => when (s.serving && s.shardDue h i) s fun s => s.arriveShard h l i d

/-- SHARD_READ_TIMEOUT (R277): no data within the shard read time-out. -/
def execShardReadTimeout (h : Word) (i : Nat) (s : State) : Host.Outcome State Fault Refusal :=
  match s.loadRun h with
  | none => idle s
  | some l => when (s.serving && s.shardDue h i) s fun s => s.takeShard h l i none

/-! ## LOAD_GEN at release -/

/-- The source entries of a list. -/
def sourcesOf (b : Bytes) (n : Nat) : List Bytes := (List.range n).map fun i => sliceAt b (16 * i) 16

/-- The first fault of some source entries: a DETAIL code (R344). -/
def sourceFault (l : List Bytes) : Option Nat :=
  if l.any fun e => !allZero (e.drop 9) then some 1
  else if l.any fun e => 3 ≤ leAt e 8 1 then some 5 else none

/-- Map a reference collection as a generation (R297). -/
def State.mapColl (s : State) (m : Cmd) (g id status : Nat) (digest : Digest) : State :=
  let h := m.handle
  let x := m.target
  let cx := s.ctx x
  match Tab.opt s.colls id with
  | none => s.failCmd h 0x02 0x06
  | some k =>
    if k.part != (s.func cx.req.func).partition || k.body.manifest.isNone || k.body.digest != digest || (Tab.opt cx.gens g).isSome ||
        k.width != cx.width then s.failCmd h 0x02 0x06
    else if 32 ≤ cx.gens.length then s.failCmd h 0x0D 0
    else
      let codes : List Byte := (List.range k.body.count).map fun i =>
        BitVec.ofNat 8 (if k.body.good i then 5 else Tab.look k.body.shards 4 i - 1)
      let va := ((List.range 32).find? fun i => !(cx.gens.any fun e => e.2.va == i)).getD 0
      match s.growTables x (k.body.vaPages (genBase va)) with
      | none => s.failCmd h 0x0D 0
      | some s =>
      match s.vwrite x (some h) {} status codes false with
      | none => s.failCmd h 0x03 0x0A
      | some s =>
        let s := s.modCtx x fun cx => ({ cx with gens := Tab.ins cx.gens g { ref := some id, va } }).mapBody (genBase va) k.body
        (s.modCmd h fun c => { c with nparts := k.body.count, value := BitVec.ofNat 64 k.body.goodCount }).finish h

/-- The weight key that a load of a digest finds (R509). -/
def State.weightKey (s : State) (f : Nat) (coll : Bool) (d : Digest) : Option Bytes :=
  (s.sec.wkeys.find? fun k => k.digest == d && (if coll then k.refOk else bitAt k.funcs f)).map fun k => k.key

/-- The run that a load block describes, its lists being read. -/
def loadFrom (b src tier : Bytes) (g : Nat) (ref : Option Nat) (atUse resume : Bool) (key : Option Bytes) : LoadRun :=
  { gen := g, ref, digest := digestOf (b.take 64), status := leAt b 0x60 8, manifestSrc := (leAt b 0x40 8, leAt b 0x48 1)
    sources := (sourcesOf src (leAt b 0x70 4)).map fun e => (leAt e 0 8, leAt e 8 1)
    budget := leAt b 0x58 8
    tier := (List.range (leAt b 0x74 4)).map fun i => (leAt tier (16 * i) 8, leAt tier (16 * i + 8) 8)
    atUse, resume, key, manifestBytes := leAt b 0x50 8 }

/-- A generation whose load begins. -/
def freshGen (va : Nat) (digest : Digest) (atUse : Bool) (width : Nat) : Gen := { va, body := { digest, st := .loading, atUse, width } }

/-- Release of a LOAD_GEN with sources: the checks before the manifest is read (R276, R279, R283, R291, R344). -/
def State.beginLoad (s : State) (m : Cmd) (b : Bytes) : State :=
  let h := m.handle
  let x := m.target
  let cx := s.ctx x
  let g := leAt m.body 0 2
  let lf := leAt m.body 2 1
  let ref := leAt m.body 4 4
  let ns := leAt b 0x70 4
  let nt := leAt b 0x74 4
  let resume := lf.testBit 1
  let digest := digestOf (b.take 64)
  if 65536 < ns then s.failCmd h 0x02 0x05
  else match s.vread x (some h) {} (leAt b 0x68 8) (16 * ns) with
  | none => s.failCmd h 0x03 0x0A
  | some (s, src, p) =>
    if p then s.failCmd h 0x03 0x0A
    else match sourceFault (sliceAt b 0x40 16 :: sourcesOf src ns) with
    | some d => s.failCmd h 0x02 d
    | none =>
      if 4096 < nt then s.failCmd h 0x02 0x05
      else match s.vread x (some h) {} (leAt b 0x78 8) (16 * nt) with
      | none => s.failCmd h 0x03 0x0A
      | some (s, tier, p) =>
        let key := s.weightKey cx.req.func (ref != 0) digest
        let l := loadFrom b src tier g (if ref = 0 then none else some ref) (lf.testBit 0) resume key
        let old := if ref = 0 then (Tab.opt cx.gens g).map fun n => n.body else (Tab.opt s.colls ref).map fun k => k.body
        if p then s.failCmd h 0x03 0x0A
        else if l.tier.any fun e => e.1 % Config.page != 0 || e.2 % Config.page != 0 then s.failCmd h 0x02 0x05
        else if ref = 0 && lf.testBit 0 && cx.width < 64 then s.failCmd h 0x02 0x05
        else if (if resume then !(old.any fun b => (b.st == .incomplete || b.st == .held) && b.digest == digest) ||
              (ref = 0 && (Tab.opt cx.gens g).any fun n => n.ref.isSome || !n.loaded) else old.isSome) then s.failCmd h 0x02 0x06
        else if !resume && 32 ≤ cx.gens.length then s.failCmd h 0x0D 0
        else if (s.translateAll x .write false l.status ns).isNone then s.failCmd h 0x03 0x0A
        else
          let atUse := (if resume then old.map fun b => b.atUse else none).getD (lf.testBit 0)
          let s := if resume then s.modBody (s.loadAt h l) fun b => if b.st == .incomplete then { b with st := .loading } else b
            else
              let va := ((List.range 32).find? fun i => !(cx.gens.any fun e => e.2.va == i)).getD 0
              s.modCtx x fun cx => { cx with gens := Tab.ins cx.gens g (freshGen va digest atUse (if atUse then 64 else cx.width)) }
          s.modCmd h fun c => { c with work := .load { l with atUse } }

/-- Release of a LOAD_GEN (R276, R297, R299, R344). -/
def State.releaseLoadGen (s : State) (m : Cmd) : State :=
  let h := m.handle
  let ref := leAt m.body 4 4
  match s.vread m.target (some h) {} (leAt m.body 8 8) 128 with
  | none => s.failCmd h 0x03 0x0A
  | some (s, b, p) =>
    if p then s.failCmd h 0x03 0x0A
    else if ref != 0 && !(leAt m.body 2 1).testBit 1 then s.mapColl m (leAt m.body 0 2) ref (leAt b 0x60 8) (digestOf (b.take 64))
    else if ref != 0 && (s.ctx m.target).req.func != 0 then s.failCmd h 0x02 0x06
    else s.beginLoad m b

/-! ## UNLOAD_GEN (R296) -/

/-- Is a SET_GEN to a generation waiting? -/
def State.setGenDue (s : State) (x g : Nat) : Bool := s.cmds.any fun m => m.target == x && m.op == 0x12 && leAt m.body 0 2 == g && m.ring != .admin

/-- The engine states of a context: on its cores, or saved. -/
def State.engines (s : State) (x : Nat) : List CoreSt := (List.range (s.ctx x).req.cores).map fun k => s.eng x k

/-- Is an operation an LSTREAM of a generation? -/
def LeatOp.streams (o : LeatOp) (g : Nat) : Bool := o.kind == 1 && leAt o.block 0 2 == g

/-- Does a pass that repeats still have streamed blocks of a generation to be read again (R287)? -/
def TileSlot.replays (t : TileSlot) (g : Nat) : Bool :=
  (t.use == .abandoned || (t.use == .pass && t.replay)) && (t.srcsA ++ t.srcsB).any fun e => e.op.streams g

/-- Is an LSTREAM of a generation queued, running, held in a suspended kernel, or to be replayed (R287, R296)? -/
def State.streamBusy (s : State) (x g : Nat) : Bool :=
  (s.engines x).any fun e => (e.leat.any fun o => o.streams g) || e.arrays.any fun a => a.2.slot0.replays g || a.2.slot1.replays g

/-- Release of an UNLOAD_GEN. -/
def State.releaseUnload (s : State) (m : Cmd) : State :=
  let h := m.handle
  let x := m.target
  let cx := s.ctx x
  let g := leAt m.body 0 2
  match Tab.opt cx.gens g with
  | none => s.failCmd h 0x02 0x06
  | some n =>
    if !n.loaded || (n.ref.isNone && n.body.st == .loading) then s.failCmd h 0x02 0x06
    else if cx.seqs.any fun q => q.2.gen == g then s.failCmd h 0x08 0
    else if cx.current == some g || s.setGenDue x g then s.failCmd h 0x02 0x06
    else s.modCtx x fun cx => { cx with gens := Tab.change cx.gens g fun n => { n with loaded := false } }

/-- GEN_PAGES_FREED (R296, R523, R524): with its streams done, the generation is unmapped, its pages are scrubbed, and UNLOAD_GEN
completes. A mapped collection keeps its pages, and no record is made of it. -/
def execGenPagesFreed (h : Word) (s : State) : Host.Outcome State Fault Refusal :=
  match s.cmd h with
  | none => idle s
  | some m =>
    when (s.serving && m.op == 0x11 && m.st == .released && !s.streamBusy m.target (leAt m.body 0 2)) s fun s =>
      let x := m.target
      let g := leAt m.body 0 2
      match Tab.opt (s.ctx x).gens g with
      | none => s.okCmd h 0
      | some n =>
        let slot := if n.ref.isNone && n.body.slot != (s.ctx x).slotKey then n.body.slot else 0
        let r := s.discardGen x g
        let s := if n.ref.isSome then r.1
          else r.1.appendScrub 4 x (s.ctx x).req.func slot (if slot = 0 then 0 else 1) r.2 0 h
        s.okCmd h 0

/-! ## LOAD_TABLE (R272, R274, R275) -/

/-- Release of a LOAD_TABLE. -/
def State.releaseTable (s : State) (m : Cmd) : State :=
  let h := m.handle
  let x := m.target
  match s.vread x (some h) {} (leAt m.body 8 8) 256 with
  | none => s.failCmd h 0x03 0x0A
  | some (s, b, p) =>
    if p then s.failCmd h 0x03 0x0A
    else if !tableOk b then s.failCmd h 0x02 0
    else
      let t := tableOf b
      match Tab.opt (s.ctx x).slots t.1 with
      | some old =>
        if old = t.2 then s.okCmd h 0
        else if old.tgen = t.2.tgen then s.failCmd h 0x02 0
        else s.modCmd h fun c => { c with work := .table t.1 t.2 }
      | none => s.modCmd h fun c => { c with work := .table t.1 t.2 }

/-- Is a block that names a slot of a context queued (R275)? -/
def State.slotQueued (s : State) (x slot : Nat) : Bool :=
  let inTile : TileSlot → Bool := fun t => t.busy && t.tabs.contains slot
  (s.engines x).any fun e => e.arrays.any fun a =>
    (a.2.streamA ++ a.2.streamB).any (fun b => b.tabs.contains slot) || inTile a.2.slot0 || inTile a.2.slot1

/-- TABLE_SLOT_WRITE (R275). -/
def execTableSlotWrite (h : Word) (s : State) : Host.Outcome State Fault Refusal :=
  match s.cmd h with
  | none => idle s
  | some m =>
    match m.work with
    | .table n t =>
      when (s.serving && m.st == .released && !s.slotQueued m.target n) s fun s =>
        (s.modCtx m.target fun cx => { cx with slots := Tab.ins cx.slots n t }).okCmd h 0
    | _ => idle s

/-! ## SET_GEN (R292) -/

/-- Must a SET_GEN wait for its generation (R291)? -/
def State.setGenHeld (s : State) (x g : Nat) : Bool := (s.genBody x g).any fun b => b.st == .verifying || b.st == .held

/-- Apply a SET_GEN in order step 6 (R292, R527). -/
def State.applySetGen (s : State) (m : Cmd) : State :=
  let x := m.target
  let g := leAt m.body 0 2
  let old := (s.ctx x).current
  match s.genBody x g with
  | none => s.failCmd m.handle 0x02 0x06
  | some b =>
    if !((Tab.opt (s.ctx x).gens g).any fun n => n.loaded) then s.failCmd m.handle 0x02 0x06
    else if b.st != .ready then s.failCmd m.handle 0x0A 0x06
    else
      let body := toLe 2 g ++ toLe 2 (old.getD 0) ++ toLe 4 0 ++ toLe 8 m.turn.toNat ++ List.replicate 16 0 ++ digestBytes (s.genDigest x old)
      let s := s.modCtx x fun cx => { cx with current := some g }
      (s.appendRec x { kind := 0x05, handle := some m.handle, gen := some g, rflags := lateFlag m.late, gov := s.gov.st.code, body }).okCmd
        m.handle 0

/-! ## Digest scrub and repair (R280, R281, R298, R299) -/

/-- Where a scrub row looks: a generation of a context, or, for x = 256, the collection with the number given. -/
def scrubAt (x gen : Nat) : LoadAt := if x < 256 then .gen x gen else .coll gen

/-- Has the digest of a shard failed, or is one of its codewords poisoned (R280)? -/
def State.shardWrong (s : State) (b : GenBody) (i : Nat) : Option Nat :=
  if (b.spans.filter fun e => e.1 == i).any fun e => s.imagePoisoned b e.2.1 e.2.2 then some 3
  else if sha512 (s.shardBytes b i) != b.storedDigest i then some 1 else none

/-- VERIFYING is over once every shard has been checked (R281); a collection with a bad one is held at the next boundary instead (R280,
R298). -/
def GenBody.verified (b : GenBody) (coll : Bool) : GenBody :=
  if b.st == .verifying && (List.range b.count).all (fun i => Tab.look b.shards 0 i != 0) then
    (if b.goodCount == b.count then { b with st := .ready }
     else if coll && !b.badShards.isEmpty then b else { b with st := .incomplete })
  else b

/-- The next shard that the scrubber checks: of a generation that is not yet verified, the lowest that it has not checked (R281); else each in
ascending order, over and over (R280). -/
def GenBody.nextCheck (b : GenBody) : Option Nat :=
  match (List.range b.count).find? fun i => Tab.look b.shards 0 i == 0 with
  | some i => if b.st == .loading then none else some i
  | none => if b.st == .ready || b.st == .incomplete then some (b.scrubNext % max 1 b.count) else none

/-- Is a shard stored as it can be checked: good so far, and, expanded at load, expanded? -/
def GenBody.checkable (b : GenBody) (i : Nat) : Bool :=
  (b.good i || Tab.look b.shards 0 i == 0) && (b.atUse || !b.expanded.isEmpty)

/-- The outcome of a check: a shard that a generation not yet verified had unchecked is good, or has the code given. -/
def GenBody.checked (b : GenBody) (i : Nat) (code : Option Nat) (coll : Bool) : GenBody :=
  let b := { b with scrubNext := (i + 1) % max 1 b.count
                    badShards := if code.isSome then addNew i b.badShards else b.badShards }
  if Tab.look b.shards 0 i = 0 then ({ b with shards := Tab.put b.shards 0 i (code.getD 0 + 1) } : GenBody).verified coll else b

/-- A HELD collection is READY again at the next boundary once every shard is good (R299). -/
def State.collRestored (s : State) (id : Nat) : State :=
  { s with colls := Tab.change s.colls id fun k =>
      if k.body.st == .held && k.body.goodCount == k.body.count && k.body.badShards.isEmpty then { k with readyNext := true } else k }

/-- DIGEST_SCRUB (R280, R281); x = 256 names the reference collection with the number given. -/
def execDigestScrub (x gen shard : Nat) (s : State) : Host.Outcome State Fault Refusal :=
  let a := scrubAt x gen
  match s.bodyAt a with
  | none => idle s
  | some b =>
    when (s.serving && b.nextCheck == some shard) s fun s =>
      let count : State → Nat → State := fun s n => match a with
        | .gen x _ => s.bumpFw x n 1
        | .coll _ => s
      let s := count s 12
      let wrong := if b.checkable shard then s.shardWrong b shard else none
      let s := if wrong.isSome && shard ∉ b.badShards then count s 13 else s
      let s := s.modBody a fun b => b.checked shard wrong a.ctx.isNone
      match a with
      | .coll id => s.collRestored id
      | .gen _ _ => s

/-- The outcomes with some shards marked as unreadable, but for those that were bad before. -/
def GenBody.markBad (b : GenBody) (bad : List Nat) : Tab Nat :=
  bad.foldl (fun t i => if b.good i || (Tab.look b.shards 0 i = 0 && b.st != .loading) then Tab.put t 0 i 4 else t) b.shards

/-- Bad shards of private generations take effect at a boundary: marked, the generation INCOMPLETE, GEN_SHARD_BAD raised (R280). -/
def State.boundaryGens (s : State) : State :=
  s.ctxs.foldl (fun s e => e.2.gens.foldl (fun s g =>
    if g.2.ref.isSome || g.2.body.badShards.isEmpty then s
    else
      let bad := g.2.body.badShards
      let s := s.modBody (.gen e.1 g.1) fun b => ({ b with
        badShards := []
        st := if b.st == .ready then .incomplete else b.st
        shards := b.markBad bad } : GenBody).verified false
      bad.foldl (fun s i => s.raiseCtx e.1 0x0501 [g.1, i]) s) s) s

/-- The contexts that map a collection. -/
def State.mappers (s : State) (id : Nat) : List Nat := (s.ctxs.filter fun e => e.2.gens.any fun g => g.2.ref == some id).map fun e => e.1

/-- Remap the pages of a bad shard to the replica's, in the collection and in every context that maps it (R299). -/
def State.remap (s : State) (id : Nat) (shard : Nat) : State :=
  match Tab.opt s.colls id with
  | none => s
  | some k =>
    let idx := pagesOf ((k.body.spans.filter fun e => e.1 == shard).map fun e => e.2)
    let swap := idx.filterMap fun i => (Tab.opt k.replicaPages i).map fun p => (i, p)
    let old := swap.filterMap fun e => Tab.opt k.body.pages e.1
    let body := { k.body with pages := swap.foldl (fun t e => Tab.ins t e.1 e.2) k.body.pages }
    let s : State := { s with colls := Tab.ins s.colls id { k with body, replicaPages := k.replicaPages.filter fun e => e.1 ∉ idx } }
    let s := (s.giveOut (swap.map fun e => e.2) (.coll id)).freePages old
    (s.mappers id).foldl (fun s x => (s.modCtx x fun cx => (cx.gens.filter fun g => g.2.ref == some id).foldl (fun cx g =>
      swap.foldl (fun cx e => cx.mapPages (genBase g.2.va + e.1 * Config.page) body.slot false false false [e.2]) cx) cx).dropTlb x) s

/-- Ask for the shards of a collection where neither a replica nor a backing copy can restore them (R299). -/
def State.askShards (s : State) (id : Nat) (l : List Nat) : State :=
  l.foldl (fun s i => s.raiseDev 0x0504 12 0 [id, i]) s

/-- One collection at a boundary (R280, R298, R299): poisoned shards make it HELD, and its repair starts; a repaired one is READY again. -/
def State.boundaryColl (s : State) (id : Nat) : State :=
  match Tab.opt s.colls id with
  | none => s
  | some k =>
    let s := if !k.readyNext then s
      else
        let s : State := { s with colls := Tab.change s.colls id fun k => { k with readyNext := false, body := { k.body with st := .ready } } }
        if (s.mappers id).isEmpty then s.raiseDev 0x0503 12 0 [id] else (s.mappers id).foldl (fun s x => s.raiseCtx x 0x0503 [id]) s
    let bad := k.body.badShards
    if bad.isEmpty then s
    else
      let s := s.modBody (.coll id) fun b => { b with
        badShards := [], st := if b.st == .ready || b.st == .verifying then .held else b.st, shards := b.markBad bad }
      let s := (s.mappers id).foldl (fun s x => bad.foldl (fun s i => s.raiseCtx x 0x0502 [id, i]) s) s
      if k.replica then
        let s := bad.foldl (fun s i => s.remap id i) s
        let rest := s.mem.pagesOf fun u => u == .collReplica id
        { s.freePages rest with colls := Tab.change s.colls id fun k => { k with replica := false, replicaPages := [] } }
      else if k.backing.isEmpty then s.askShards id bad else s

/-- Bad shards of a collection under repair: those checked and not good. -/
def GenBody.lacking (b : GenBody) : List Nat := (List.range b.count).filter fun i => !b.good i && Tab.look b.shards 0 i != 0

/-- REPLICA_VERIFY_DONE (R299): the remapped copies agree with their digests, or not. -/
def execReplicaVerifyDone (coll : Nat) (ok : Bool) (s : State) : Host.Outcome State Fault Refusal :=
  match Tab.opt s.colls coll with
  | none => idle s
  | some k =>
    when (s.serving && k.body.st == .held && k.wantReplica && !k.replica && !k.readyNext && k.load.isNone) s fun s =>
      let right := k.body.lacking.all fun i => (s.shardWrong k.body i).isNone
      if ok && right then
        let all := k.body.lacking.foldl (fun t i => Tab.put t 0 i 1) k.body.shards
        (s.modBody (.coll coll) fun b => { b with shards := all }).collRestored coll
      else if k.backing.isEmpty then s.askShards coll k.body.lacking else s

/-- BACKING_COPY_DONE (R299): a shard has been read from the backing copy; it is written in whole codewords and verified. -/
def execBackingCopyDone (coll shard : Nat) (d : Bytes) (s : State) : Host.Outcome State Fault Refusal :=
  match Tab.opt s.colls coll with
  | none => idle s
  | some k =>
    when (s.serving && k.body.st == .held && !k.backing.isEmpty && shard ∈ k.body.lacking) s fun s =>
      let n := ((k.body.spans.filter fun e => e.1 == shard).map fun e => e.2.2).sum
      let s := ((k.body.spans.filter fun e => e.1 == shard).foldl (fun (a : State × Bytes) e =>
        (a.1.imageWrite none none k.body e.2.1 (wholeCws (a.2.take e.2.2)), a.2.drop e.2.2)) (s, fitTo n d)).1
      if (s.shardWrong k.body shard).isNone then
        (s.modBody (.coll coll) fun b => { b with shards := Tab.put b.shards 0 shard 1 }).collRestored coll
      else s.askShards coll [shard]

/-- REPLICA_REBUILD_DONE (R297, R299): a copy of every stored page stands in another quadrant. -/
def execReplicaRebuildDone (coll : Nat) (s : State) : Host.Outcome State Fault Refusal :=
  match Tab.opt s.colls coll with
  | none => idle s
  | some k =>
    let primary := (k.body.pages.map fun e => dpaQuad (e.2 * Config.page)).eraseDups
    let ranges := ((s.partQuads k.part).filter fun q => q ∉ primary).map s.localRange
    match s.freeOf ranges k.body.pages.length with
    | none => idle s
    | some l =>
      when (s.serving && k.wantReplica && !k.replica && k.body.st == .ready) s fun s =>
        let s := s.giveOut l (.collReplica coll)
        let s := (k.body.pages.zip l).foldl (fun s e =>
          let r := s.pread none none {} k.body.slot (e.1.2 * Config.page) Config.page
          r.1.pwrite none none k.body.slot (e.2 * Config.page) r.2.1 false) s
        let copies := (k.body.pages.zip l).map fun e => (e.1.1, e.2)
        { s with colls := Tab.change s.colls coll fun k => { k with replica := true, replicaPages := copies } }

/-! ## PATROL_SCRUB_READ (R253, R254, R257) -/

/-- PATROL_SCRUB_READ: the scrubber of a channel reads its next codeword, in ascending order; the operand is the error pattern that the
stored bytes have taken on since their last read. It reads every codeword of its channel, also one that no DPA reaches (R240, R257). -/
def execPatrolScrubRead (ch : Nat) (err : List (Nat × Byte)) (s : State) : Host.Outcome State Fault Refusal :=
  let cw := Tab.look s.mem.patrol 0 ch
  match s.dpaAt ch cw with
  | none => when (ch < 384 && s.board.stage != .off) s fun s => { s with mem := { s.mem with patrol := Tab.del s.mem.patrol ch } }
  | some dpa =>
    when (ch < 384 && s.memUp (ch / 96) && !s.mem.selfRefresh.getLsbD (ch / 96)) s fun s =>
      let s := ({ s with mem := { s.mem with patrol := Tab.put s.mem.patrol 0 ch (cw + 1) } } : State).bumpChannel ch 4 1
      let s := (s.upset dpa err).settleCw 7 dpa
      if (s.mem.tag dpa).poison then s.foundPoison dpa else s

end Sys2Proof.Machine
end

