-- ==== Sys2Proof/Machine/Data.lean ====
section
/-! DEFINITION. The commands that move or report data: COPY, FILL, QUERY and SCRUB (R258, R346, R350, R351). -/

namespace Sys2Proof.Machine

/-! ## Tensor descriptors of a command -/

/-- A descriptor that a command names: its failure status and DETAIL code, or the descriptor (R61, R335). An address that is
not aligned is an invalid descriptor, and a poisoned one cannot be read (log entry 43). -/
def State.cmdDesc (s : State) (m : Cmd) (va : Nat) : State × (Nat × Nat ⊕ Desc) :=
  if va % 32 != 0 then (s, .inl (0x02, 0x08))
  else match s.vread m.target (some m.handle) {} va 32 with
    | none => (s, .inl (0x03, 0x0A))
    | some (s, b, poison) =>
      if poison then (s, .inl (0x03, 0x0A)) else if descValid b then (s, .inr (descOf b)) else (s, .inl (0x02, 0x08))

/-- The agent that a COPY or FILL is: it reaches memory only (R346). -/
def Cmd.agent (m : Cmd) : Agent := { ctx := m.target, core := none, cmd := some m.handle }

/-- Rows of part p of a destination (R350). -/
def partRows (rows p : Nat) : List Nat :=
  ((List.range (groupRows rows)).map fun i => p * groupRows rows + i).filter (· < rows)

/-- Write the rows of a destination part by part: a part fails with the status of its first row that cannot be read or written, and the
command completes, with the DETAIL code of the failure that it has first (R335, R350, R351). A row answers the state after it, or its failure. -/
def State.runParts (s : State) (m : Cmd) (d : Desc) (row : State → Nat → State × Option Nat) : State :=
  let n := ceilDiv d.rows (groupRows d.rows)
  let s := s.modCmd m.handle fun c => { c with nparts := n }
  let s := (List.range n).foldl (fun s p =>
    let bad := (partRows d.rows p).foldl (fun (a : State × Option Nat) r => match a.2 with
      | some _ => a
      | none => row a.1 r) (s, none)
    match bad.2 with
    | some st => bad.1.modCmd m.handle fun c =>
      { c.failPart p st with detail := if c.failures.isEmpty && st = 0x03 then 0x0A else c.detail }
    | none => bad.1) s
  s.finish m.handle

/-- One row of a COPY between tensors of one format: its bytes, the padding nibble of a row zero (R56, R346). -/
def State.copyRow (s : State) (m : Cmd) (a b : Desc) (r : Nat) : State × Option Nat :=
  let n := rowLen a.fmt a.cols
  match s.vread m.target (some m.handle) {} (a.rowVa r) n with
  | none => (s, some 0x03)
  | some (s, d, poison) =>
    if poison then (s, some 0x06)
    else
      let d := if elemBits a.fmt = 4 && a.cols % 2 = 1 then d.take (n - 1) ++ [(d.getD (n - 1) 0) &&& 0x0F] else d
      match s.vwrite m.target (some m.handle) {} (b.rowVa r) d false with
      | none => (s, some 0x03)
      | some s => (s, none)

/-- Where the stochastic bytes of a command's row are drawn (R194). -/
def Cmd.drawPos (m : Cmd) (r : Nat) : DrawPos :=
  { key := BitVec.ofNat 128 (leAt m.body 0x10 16), stream := 0, step := 0, row := r, col := 0 }

/-- Write one row of values through the quantiser. -/
def State.quantOrFail (s : State) (m : Cmd) (b : Desc) (r : Nat) (vals : List (Option Nat)) : State × Option Nat :=
  match s.rowsFault m.agent b [r] with
  | some _ => (s, some 0x03)
  | none => (s.quantRow m.agent b r (m.drawPos r) vals, none)

/-- One row of a COPY that converts (R58, R346). -/
def State.convertRow (s : State) (m : Cmd) (a b : Desc) (r : Nat) : State × Option Nat :=
  match s.vread m.target (some m.handle) {} (a.rowVa r) (rowLen a.fmt a.cols) with
  | none => (s, some 0x03)
  | some (s, d, poison) =>
    if poison then (s, some 0x06)
    else s.quantOrFail m b r ((rowCodes a.fmt a.cols d).map fun v => some (decodeReal a.fmt v a.scale.toNat a.zp).1)

/-- Release of a COPY (R346). -/
def State.releaseCopy (s : State) (m : Cmd) : State :=
  let a := s.cmdDesc m (leAt m.body 0 8)
  match a.2 with
  | .inl f => a.1.failCmd m.handle f.1 f.2
  | .inr src =>
    let b := a.1.cmdDesc m (leAt m.body 8 8)
    match b.2 with
    | .inl f => b.1.failCmd m.handle f.1 f.2
    | .inr dst =>
      let s := b.1
      if src.rows != dst.rows || src.cols != dst.cols || (src.fmt != dst.fmt && !quantFormat dst.fmt) then s.failCmd m.handle 0x02 0x08
      else if src.fmt = dst.fmt then s.runParts m dst fun s r => s.copyRow m src dst r
      else s.runParts m dst fun s r => s.convertRow m src dst r

/-- Release of a FILL (R346). -/
def State.releaseFill (s : State) (m : Cmd) : State :=
  let b := s.cmdDesc m (leAt m.body 0 8)
  match b.2 with
  | .inl f => b.1.failCmd m.handle f.1 f.2
  | .inr dst =>
    if !quantFormat dst.fmt then b.1.failCmd m.handle 0x02 0x08
    else b.1.runParts m dst fun s r => s.quantOrFail m dst r (List.replicate dst.cols (some (leAt m.body 8 4)))

/-! ## QUERY (R346) -/

/-- The 32 bytes of a statistics entry (R69). -/
def Stat.bytes (t : Stat) : Bytes :=
  toLe 8 t.written.word.toNat ++ toLe 8 t.clipped.word.toNat ++ toLe 8 t.nonfinite.word.toNat ++ toLe 8 t.turn.toNat

/-- The 64-bit word of a page-table entry (R248). -/
def Pte.word (e : Pte) : Nat :=
  e.slot * 2 ^ 43 + e.addr % 2 ^ 31 * 4096 + (if e.tier then 16 else 0) + (if e.x then 8 else 0) + (if e.w then 4 else 0) +
    (if e.leaf then 2 else 0) + if e.v then 1 else 0

/-- The 32 bytes of a catalogue entry (R301). -/
def Folio.bytes (f : Folio) (prot : Bool) : Bytes :=
  toLe 8 f.base ++ toLe 4 f.scale.toNat ++ toLe 2 f.filled ++ toLe 1 f.zp ++
    toLe 1 ((if f.spilled then 8 else 0) + (if f.poisoned then 4 else 0) + if f.fixed then 2 else 0) ++ List.replicate 8 0 ++
    toLe 8 (if prot then f.integrity.toNat else 0)

/-- The number of a generation's state, in the order of R291. -/
def GenState.code : GenState → Nat
  | .loading => 0
  | .incomplete => 1
  | .verifying => 2
  | .ready => 3
  | .held => 4

/-- The rows and slot state words of a logical shelf (R149, R346). -/
def LCore.shelfBytes (l : LCore) (x : Nat) : Bytes :=
  Tab.span l.rows 0 (65536 * x) 65536 ++ (Tab.span l.slots {} (16 * x) 16).flatMap fun t => toLe 2 t.word

/-- Counters that QUERY WHAT 0 reports. -/
def queryCounters : Nat := 46

/-- The result of a QUERY: a DETAIL code, or the bytes (R346; log entry 23). -/
def State.queryResult (s : State) (x : Nat) (b : Bytes) : Nat ⊕ Bytes :=
  let cx := s.ctx x
  let arg := leAt b 4 4
  let arg2 := leAt b 8 8
  match leAt b 0 1 with
  | 0 => .inr ((List.range queryCounters).flatMap fun i => toLe 8 (Tab.look s.ctxCounters {} (1024 * x + i)).word.toNat)
  | 1 => if 65536 < arg + arg2 then .inl 5 else .inr ((Tab.span cx.stats {} arg arg2).flatMap Stat.bytes)
  | 2 => .inr (toLe 8 (Tab.look cx.ptL0 {} (arg2 / 2 ^ 39 % 512)).word ++ toLe 8 (Tab.look cx.ptL1 {} (arg2 % 2 ^ 48 / 2 ^ 30)).word ++
      toLe 8 (Tab.look cx.ptL2 {} (arg2 % 2 ^ 48 / 2 ^ 21)).word)
  | 3 => match Tab.opt cx.seqs arg with
    | none => .inl 6
    | some q => .inr ((q.cat.drop arg2).flatMap fun e => e.2.bytes cx.protected)
  | 4 => if cx.req.cores ≤ arg || cx.req.shelves ≤ arg2 then .inl 5 else .inr ((s.lcore x arg).shelfBytes arg2)
  | _ => match s.genBody x arg with
    | none => .inl 6
    | some g => .inr (toLe 8 g.st.code ++ digestBytes g.digest ++ toLe 8 (cx.seqs.filter fun q => q.2.gen == arg).length)

/-- Release of a QUERY: entries cleared are those written whole (R70, R346). -/
def State.releaseQuery (s : State) (m : Cmd) : State :=
  let b := m.body
  let x := m.target
  if (s.ctx x).st ∈ [.closed, .opening, .scrubbing] then s.failCmd m.handle 0x02 0x06
  else match s.queryResult x b with
    | .inl d => s.failCmd m.handle 0x02 d
    | .inr out =>
      let out := out.take (leAt b 0x18 4)
      match s.vwrite x (some m.handle) {} (leAt b 0x10 8) out false with
      | none => s.failCmd m.handle 0x03 0x0A
      | some s =>
        let s := if leAt b 0 1 = 1 && (leAt b 1 1).testBit 0 then
          s.modCtx x fun cx => { cx with stats := Tab.clear cx.stats (leAt b 4 4) (out.length / 32) } else s
        s.okCmd m.handle (BitVec.ofNat 64 out.length)

/-! ## SCRUB (R258, R350, R524) -/

/-- Release of a SCRUB: each page that translates with write permission is written whole; a part with a page that does not fails as
DENIED. The record names the pages written. -/
def State.releaseScrub (s : State) (m : Cmd) : State :=
  let x := m.target
  let va := leAt m.body 8 8
  let n := leAt m.body 0x10 8 / Config.page
  let g := ceilDiv n 64
  let place : Nat → Option Nat := fun i => (s.translate x .write false (va + i * Config.page)).map fun d => d.1 / Config.page
  let r := (List.range n).foldl (fun (a : State × List Nat) i => match place i with
    | some p => (({ a.1 with mem := a.1.mem.scrub (p * Config.page) Config.page } : State), a.2 ++ [p])
    | none => (a.1.modCmd m.handle fun c => c.failPart (i / g) 0x03, a.2)) (s, [])
  let s := r.1.modCmd m.handle fun c => if c.failures.isEmpty then c else { c with detail := 0x0A }
  (s.appendScrub 1 x (s.ctx x).req.func 0 0 r.2 0 m.handle).finish m.handle

end Sys2Proof.Machine
end

