-- ==== Sys2Proof/Machine/Opening.lean ====
section
/-! DEFINITION. OPEN_CONTEXT: its checks and reservations, its first placement, and the adoption of a recoverable context (R357 to R359,
R487, R526, R527). -/

namespace Sys2Proof.Machine

/-- What the body of an OPEN_CONTEXT asks for (R342); DEADLINE_TICKS = 0 selects the default (R156). -/
def openReqOf (b : Bytes) : OpenReq :=
  { func := leAt b 0 1, modes := leAt b 1 1, width := leAt b 2 1, shelves := leAt b 3 1, cores := leAt b 4 1, qmask := leAt b 5 1
    ringMask := leAt b 6 2, deadline := if leAt b 8 4 = 0 then 200000 else leAt b 8 4, pool := leAt b 0x10 8 }

/-- Is a function F0 or an enabled VF? -/
def State.funcOk (s : State) (f : Nat) : Bool := f ≤ s.host.vfs

/-- Contexts of a function that are not free. -/
def State.contextsOf (s : State) (f : Nat) : Nat := (s.ctxs.filter fun e => e.2.st != .closed && e.2.req.func == f).length

/-- Cores of the quadrants of a mask that are not withdrawn. -/
def State.coresIn (s : State) (mask : Nat) : Nat := ((List.range 128).filter fun c => mask.testBit (c / 32) && c ∉ s.units.withdrawn).length

/-- Does a sluice deadline lie within the bounds (R156)? -/
def State.deadlineOk (s : State) (q : OpenReq) : Bool := s.params.deadlineMin ≤ q.deadline && q.deadline ≤ s.params.deadlineMax

/-- Rows 2 to 5 of the table of R357: the status of the first check that fails. -/
def State.openCheck (s : State) (q : OpenReq) : Option Nat :=
  let w := s.widthFor q
  if !s.funcOk q.func || (s.func q.func).quota ≤ s.contextsOf q.func then some 0x02
  else if q.qmask = 0 || !((bitsOf 4 q.qmask).all fun i => s.partOfQuad i == (s.func q.func).partition) || s.coresIn q.qmask < q.cores then
    some 0x02
  else if q.shelves = 0 || 192 < q.shelves || (q.width != 0 && (q.width < 56 || 64 < q.width)) || !s.deadlineOk q ||
      q.pool % 65536 != 0 ||
      (s.params.uniform && q.width != 0 && q.width != s.params.wU) then some 0x02
  else if ((List.range 4).flatMap (s.qualCores q w)).length < q.cores then some 0x07
  else none

/-- Do the values of an OPEN_CONTEXT equal those of the recoverable context that it names (R487)? -/
def adopts (a b : OpenReq) : Bool :=
  a.func == b.func && a.modes == b.modes && a.width == b.width && a.shelves == b.shelves && a.cores == b.cores && a.qmask == b.qmask &&
    a.pool == b.pool

/-- The rings that good headers set up, with their keys' ring numbers. -/
def ringsFrom (f : Nat) (l : List HeaderOutcome) : List (Nat × Ring) :=
  l.filterMap fun o => o.hdr.map fun b => (o.ring, ringFrom f o.vqp b)

/-- Check the headers of an OPEN_CONTEXT and write them back: the rings, or the status of the lowest-numbered ring that failed (R332). -/
def State.openRings (s : State) (q : OpenReq) (table : Nat) (hdrs : List (Option Bytes)) : State × (Nat ⊕ List (Nat × Ring)) :=
  let l := s.headersCheck q.func q.ringMask hdrs
  let s := s.headersBack q.func table l
  match l.find? fun o => o.status != 0 with
  | some o => (s, .inl o.status)
  | none => (s, .inr (ringsFrom q.func l))

/-- The memory of R358 is reserved: firmware pages in the home quadrant, the pool, and a memory key slot for a protected context; none
where something is lacking. The context holds the number from here on. -/
def State.reserve (s : State) (x : Nat) (q : OpenReq) (home : Nat) : State × Bool :=
  let s0 := s
  let s := s.modCtx x fun _ => { req := q, home, st := .opening, ledger := { ctx := x, func := q.func, openTurn := s.turn.count } }
  match s.takeFirmware x q.firmwarePages with
  | none => (s0, false)
  | some s =>
    match s.takePrivate x (ceilDiv q.pool Config.page) (.pool x) with
    | none => (s0, false)
    | some (s, pool) =>
     match s.growTables x ((List.range pool.length).map fun i => poolBase / Config.page + i) with
     | none => (s0, false)
     | some s =>
      let k := if q.modes.testBit 1 then s.takeSlot 0 x else (s, some 0)
      match k.2 with
      | none => ({ s0 with ev := k.1.ev }, false)
      | some slot =>
        (k.1.modCtx x fun cx => { cx.mapPages poolBase slot true true false pool with
          slotKey := slot, poolVa := poolBase, freeFolios := List.range (q.pool / 65536) }, true)

/-- Give back what a failed opening had reserved. -/
def State.unreserve (s : State) (x : Nat) : State :=
  let s := s.freePages (s.ownPages x)
  { (s.dropSlot (s.ctx x).slotKey) with ctxs := Tab.del s.ctxs x }

/-- Release of an OPEN_CONTEXT: the checks of R357 in their order; the first placement then comes at a boundary (R359). -/
def State.releaseOpen (s : State) (m : Cmd) (hdrs : List (Option Bytes)) : State :=
  let h := m.handle
  let x := m.target
  let q := openReqOf m.body
  let table := leAt m.body 0x18 8
  let cx := s.ctx x
  if cx.st == .recoverable then
    if cx.closeCmd.isSome || !adopts q cx.req then s.failCmd h 0x02 0x06
    else if !s.deadlineOk q then s.failCmd h 0x02 0x05
    else
      let r := s.openRings q table hdrs
      match r.2 with
      | .inl st => r.1.failCmd h st 0
      | .inr l => r.1.modCtx x fun cx => { cx with st := .opening, adopt := true, opening := some (h, l), req := q }
  else if cx.st != .closed then s.failCmd h 0x02 0x06
  else match s.openCheck q with
    | some st => s.failCmd h st 0x05
    | none =>
      match s.homeFor q with
      | none => s.failCmd h 0x0D 0
      | some home =>
        let r := s.reserve x q home
        if !r.2 then r.1.failCmd h 0x0D 0
        else
          let g := r.1.openRings q table hdrs
          match g.2 with
          | .inl st => (g.1.unreserve x).failCmd h st 0
          | .inr l => g.1.modCtx x fun cx => { cx with opening := some (h, l) }

/-! ## The first placement (R359), in order step 7 -/

/-- The active width that a first core set fixes (R90, R185). -/
def State.widthOf (s : State) (q : OpenReq) (cores : List Nat) : Nat :=
  if s.params.uniform then s.params.wU
  else if q.width != 0 then q.width
  else (cores.flatMap fun c => s.engineWidth c :: (s.presented c 0).map fun a => s.arrayWidth (8 * c + a)).foldl min 64

/-- The counters of a context number start anew with the context (R380). -/
def State.clearCounters (s : State) (x : Nat) : State :=
  { s with ctxCounters := Tab.clear s.ctxCounters (1024 * x) 1024, counters := Tab.clear s.counters (ctrAddr 5 256 x 0) 256
           gov := { s.gov with charged := Tab.del s.gov.charged x } }

/-- A STEP that was running at the warm reset has failed for every entry (R305, R487, R527). -/
def State.adoptStep (s : State) (x : Nat) (r : KRun) : State :=
  if !r.isStep then s
  else
    let s := r.entries.foldl (fun s e => s.dropFolios x e.sid e.fresh) s
    if !r.started then s
    else
      let m : Cmd := { handle := r.handle, ring := ringOf r.handle, target := x, op := 0x30, flags := 0, turn := 0, deadline := none
                       deps := [], body := [], order := 0 }
      let fails := (List.range r.entries.length).map fun i => (i, 0x0C)
      r.entries.zipIdx.foldl (fun s e => s.stepRecord x m r false fails e.2 e.1) s

/-- Check the folios of an adopted protected context by their tags (R487, R517). -/
def State.checkFolios (s : State) (x : Nat) : State :=
  if !(s.ctx x).protected then s
  else (s.ctx x).seqs.foldl (fun s q => (q.2.resident).foldl (fun s e =>
    let n := ((s.seqManifest x q.2).map fun m => m.rowBytes).getD 0 * e.2.filled
    let s := s.touch x none {} e.2.base n
    match s.vpeek x e.2.base n with
    | some rows => if s.tagOk x e.2 rows then s else s.modCtx x fun cx => cx.modFolio q.1 e.1 fun f => { f with poisoned := true }
    | none => s.modCtx x fun cx => cx.modFolio q.1 e.1 fun f => { f with poisoned := true }) s) s

/-- The first placement of an opening context on a core set: shelves become resident, the width is fixed, the rings are set up, the OPEN or
ADOPT record is appended, and OPEN_CONTEXT completes; the context is idle on no core (R359, R487, R527). -/
def State.firstPlacement (s : State) (x : Nat) (cores : List Nat) (cause : Nat) : State :=
  let cx := s.ctx x
  match cx.opening with
  | none => s
  | some (h, rings) =>
    let s := if cx.adopt then s else s.clearCounters x
    let s := (cores.zipIdx.foldl (fun s e => s.settleShelves x e.2 e.1 true) s).bumpFw x 1 1
    let w := if cx.adopt then cx.width else s.widthOf cx.req cores
    let s := s.modCtx x fun cx => { cx with
      st := .idle, opening := none, adopt := false, width := w, lastRun := s.turn.count
      uniformAtOpen := if cx.adopt then cx.uniformAtOpen else s.params.uniform }
    let s := rings.foldl (fun s r => s.installRing (.ctx x r.1) r.2) s
    let s := s.appendRec x { kind := if cx.adopt then 0x06 else 0x00, handle := some h, gov := s.gov.st.code
                             body := s.openBody x (if cx.adopt then cause else 0) }
    let s := if cx.adopt then
        let s := cx.kernels.foldl (fun s r => s.adoptStep x r) s
        (s.modCtx x fun cx => { cx with kernels := [] }).checkFolios x
      else s
    s.okCmd h 0

/-- Has a core room for `n` shelves, those of contexts that are not running given up (R136)? -/
def State.canHold (s : State) (c n : Nat) : Bool :=
  !s.underTest c && n ≤ (s.unusedShelves c).length + (((s.residents c).filter fun e => (s.ctx e.1).placed.isEmpty).map fun e => e.2.2).sum

/-- The first placement of an opening context at a boundary: on cores on which no context runs where there are enough, else on any that
qualify, since the context stays on none of them (R359, R362). Where no core set is found, the opening waits. -/
def State.placeOpening (s : State) (x cause : Nat) : State :=
  match s.chooseCores x s.coreFree false with
  | some l => s.firstPlacement x l cause
  | none => match s.chooseCores x (fun c => s.canHold c (s.ctx x).req.shelves) false with
    | some l => s.firstPlacement x l cause
    | none => s

end Sys2Proof.Machine
end

