-- ==== Sys2Proof/Machine/Release.lean ====
section
/-! DEFINITION. The release of commands (R336 to R345), the rows of the command opcodes, and what happens to a command that is not released:
cancelled for a dependency, or timed out (R337, R340). -/

namespace Sys2Proof.Machine

/-! ## Sequences (R293, R295, R296, R527) -/

/-- Release of an OPEN_SEQ (R293). -/
def State.releaseOpenSeq (s : State) (m : Cmd) : State :=
  let x := m.target
  match (s.ctx x).current with
  | none => s.failCmd m.handle 0x02 0x06
  | some g =>
    let sid := (s.ctx x).nextSid
    let key : Key128 := BitVec.ofNat 128 (leAt m.body 0 16)
    let s := s.modCtx x fun cx => { cx with
      nextSid := sid + 1, seqs := Tab.ins cx.seqs sid { gen := g, key, lastStep := s.turn.count } }
    let body := toLe 4 sid ++ toLe 2 g ++ List.replicate 42 0 ++ s.keyField x key
    (s.appendRec x { kind := 0x02, handle := some m.handle, gen := some g, rflags := lateFlag m.late + s.keysHashed x
                     gov := s.gov.st.code, body }).okCmd m.handle (BitVec.ofNat 64 sid)

/-- Must a command that closes or migrates a sequence wait (R295, R296, R374)? -/
def State.seqBusy (s : State) (x sid : Nat) : Bool := (s.ctx x).inStep sid || (s.ctx x).spillBusy sid

/-- Close a sequence: its folios return to the pool and the spill region (R296, R371). -/
def State.closeSeq (s : State) (m : Cmd) : State :=
  let x := m.target
  let sid := leAt m.body 0 4
  match Tab.opt (s.ctx x).seqs sid with
  | none => s.failCmd m.handle 0x02 0x06
  | some q =>
    let body := toLe 4 sid ++ toLe 2 q.gen ++ toLe 2 0 ++ toLe 8 q.len
    let s := s.appendRec x { kind := 0x04, handle := some m.handle, gen := some q.gen, rflags := lateFlag m.late
                             gov := s.gov.st.code, body }
    let s := s.dropFolios x sid (q.cat.map fun e => e.1)
    (s.modCtx x fun cx => { cx with seqs := Tab.del cx.seqs sid }).okCmd m.handle 0

/-- May a sequence keep its key/value state under another generation (R295)? -/
def sameGeometry (a b : Manifest) : Bool :=
  a.layers == b.layers && a.kvHeads == b.kvHeads && a.headWidth == b.headWidth && a.kvFmt == b.kvFmt

/-- Migrate a sequence (R295). -/
def State.migrateSeq (s : State) (m : Cmd) : State :=
  let x := m.target
  let sid := leAt m.body 0 4
  let g := leAt m.body 4 2
  let clear := leAt m.body 6 1 == 1
  match Tab.opt (s.ctx x).seqs sid with
  | none => s.failCmd m.handle 0x02 0x06
  | some q =>
    let keep := match s.seqManifest x q, (s.genBody x g).bind fun b => b.manifest with
      | some a, some b => sameGeometry a b
      | _, _ => false
    if !s.genReady x g || (!clear && !keep) then s.failCmd m.handle 0x02 0x06
    else
      let old := s.genDigest x (some q.gen)
      let s := if clear then (s.dropFolios x sid (q.cat.map fun e => e.1)) else s
      let len := if clear then 0 else q.len
      let s := s.modCtx x fun cx => { cx with seqs := Tab.change cx.seqs sid fun q => { q with gen := g, len } }
      let body := toLe 4 sid ++ toLe 2 q.gen ++ toLe 2 g ++ toLe 8 (leAt m.body 6 1) ++ toLe 8 len ++ List.replicate 8 0 ++ digestBytes old
      (s.appendRec x { kind := 0x03, handle := some m.handle, gen := some g, rflags := lateFlag m.late, gov := s.gov.st.code, body }).okCmd
        m.handle 0

/-! ## Windows (R404) -/

/-- Does the body of an OPEN_WINDOW keep the ranges of R404? -/
def windowRangeOk (cores shelves : Nat) (b : Bytes) : Bool :=
  let base := leAt b 8 8
  let n := leAt b 0x10 8
  if leAt b 1 1 = 0 then base % 512 == 0 && base < 2 ^ 24 && n != 0 && n % 512 == 0 && base + n ≤ 65536 * shelves && leAt b 3 1 < cores
  else base % 128 == 0 && n % 128 == 0 && !(leAt b 2 1).testBit 3

/-- Release of an OPEN_WINDOW; a tombstone of its number goes (R404, R423). -/
def State.releaseOpenWindow (s : State) (m : Cmd) : State :=
  let h := m.handle
  let x := m.target
  let b := m.body
  let n := leAt b 0 1
  if ((Tab.opt (s.ctx x).windows n).isSome || (s.collAt x n).isSome) then s.failCmd h 0x02 0x06
  else if !windowRangeOk (s.ctx x).req.cores (s.ctx x).req.shelves b then s.failCmd h 0x02 0x05
  else match s.vread x (some h) {} (leAt b 0x18 8) (4 * leAt b 0x20 2) with
    | none => s.failCmd h 0x03 0x0A
    | some (s, l, poison) =>
      if poison then s.failCmd h 0x03 0x0A
      else if (List.range (leAt b 0x20 2)).any fun i => leAt l (4 * i) 1 != 0 then s.failCmd h 0x02 0x01
      else
        let w : Window := { kind := leAt b 1 1, ops := leAt b 2 1, core := leAt b 3 1, base := leAt b 8 8, bytes := leAt b 0x10 8
                            writers := memberList l }
        (s.modCtx x fun cx => { cx with windows := Tab.ins cx.windows n w, tombs := Tab.del cx.tombs n }).okCmd h 0

/-- Complete a CLOSE_WINDOW once every accepted operation has finished. -/
def State.closeWindow (s : State) (m : Cmd) : State :=
  let x := m.target
  let n := leAt m.body 0 1
  if s.windowBusy x n then s else (s.modCtx x fun cx => { cx with windows := Tab.del cx.windows n }).okCmd m.handle 0

/-- Release of a CLOSE_WINDOW: acceptance stops. -/
def State.releaseCloseWindow (s : State) (m : Cmd) : State :=
  let x := m.target
  let n := leAt m.body 0 1
  match Tab.opt (s.ctx x).windows n with
  | none => s.failCmd m.handle 0x02 0x06
  | some w => if w.closing.isSome then s.failCmd m.handle 0x02 0x06
    else (s.modCtx x fun cx => { cx with windows := Tab.change cx.windows n fun w => { w with closing := some m.handle } }).closeWindow m

/-! ## FENCE and CLOSE_CONTEXT -/

/-- Has every command before a FENCE completed: those of its ring, or of every ring of its context (R342)? -/
def State.fenceMet (s : State) (m : Cmd) : Bool :=
  let all := (leAt m.body 0 1).testBit 0 && m.ring != .admin
  s.cmds.all fun n => m.order ≤ n.order || (if all then n.target != m.target || n.ring == .admin else n.ring != m.ring)

/-- Go on with a released CLOSE_CONTEXT: once every command of the context has completed, the context closes and its scrub runs (R345). -/
def State.closeOn (s : State) (m : Cmd) : State :=
  if (s.cmdsOf m.target).isEmpty && (s.ctx m.target).st != .scrubbing then s.closeCtx m.target 0 (some m.handle) else s

/-- May a CLOSE_CONTEXT close a context: it is the one that its fetch noted, or the context has been opened since its fetch and no other closes
it (R345; log entry 141)? -/
def State.mayClose (s : State) (x : Nat) (h : Word) : Bool :=
  (s.ctx x).closeCmd == some h ||
    ((s.ctx x).closeCmd.isNone && decide ((s.ctx x).st ∈ [.idle, .waiting, .running, .broken, .recoverable]))

/-- Release of a CLOSE_CONTEXT (R345). A context that is not open, or that another CLOSE_CONTEXT is closing, cannot be closed. -/
def State.releaseClose (s : State) (m : Cmd) : State :=
  let x := m.target
  if !s.mayClose x m.handle then s.failCmd m.handle 0x02 0x06
  else
    let s := s.modCtx x fun cx => { cx with closeCmd := some m.handle }
    (if (leAt m.body 0 1).testBit 0 then s.cancelAll x 0x0C 0 else s).closeOn m

/-! ## Release (R336) -/

/-- Commands that act in an order step of their own (R339). -/
def ownStep (op : Nat) : Bool := op == 0x12 || op == 0x61 || op == 0x71

/-- Start the work of a command that is being released. -/
def State.work (s : State) (m : Cmd) (hdrs : List (Option Bytes)) : State :=
  match m.op with
  | 0x01 => s.releaseOpen m hdrs
  | 0x02 => s.releaseClose m
  | 0x10 => s.releaseLoadGen m
  | 0x11 => s.releaseUnload m
  | 0x13 => s.releaseTable m
  | 0x20 => s.releaseOpenSeq m
  | 0x21 => if s.seqBusy m.target (leAt m.body 0 4) then s else s.closeSeq m
  | 0x22 => if s.seqBusy m.target (leAt m.body 0 4) then s else s.migrateSeq m
  | 0x30 => s.releaseStep m.target m
  | 0x31 => s.releaseLaunch m.target m
  | 0x40 => s.releaseCopy m
  | 0x41 => s.releaseFill m
  | 0x50 => s.releaseOpenWindow m
  | 0x51 => s.releaseCloseWindow m
  | 0x52 => s.collRelease m.target m
  | 0x60 => s.okCmd m.handle 0
  | 0x70 => s.releaseQuery m
  | 0x72 => s.releaseScrub m
  | _ => s

/-- Release a command: its release turn and LATE are fixed, and its work starts (R336, R338). -/
def State.release (s : State) (m : Cmd) (hdrs : List (Option Bytes)) : State :=
  let late := m.flags.testBit 1 && m.turn < s.turn.lowest
  let m := { m with st := .released, turnRel := s.turn.count, late, due := false }
  (s.modCmd m.handle fun _ => m).work m hdrs

/-- Complete a command that has not been released. -/
def State.drop (s : State) (m : Cmd) (status : Nat) : State :=
  let s := if m.op = 0x02 && (s.ctx m.target).closeCmd == some m.handle then s.modCtx m.target fun cx => { cx with closeCmd := none } else s
  s.cancelCmd m status 0

/-- Is a command held at its release for something other than its conditions: a generation or sequence that is not available for the moment,
or a collective or fence not yet due (R280, R281, R291, R298, R374)? -/
def State.releaseHeld (s : State) (m : Cmd) : Bool :=
  (m.op == 0x30 && s.stepHeld m.target m) || (m.op == 0x60 && !s.fenceMet m)

/-- Do a command's own conditions of R336 hold, its turn condition apart? -/
def State.condsMet (s : State) (m : Cmd) : Bool := s.depsDone m && s.prevDone m

/-- Is there ledger room for a command's records (R528)? -/
def State.roomFor (s : State) (m : Cmd) : Bool := m.ledgerNeed = 0 || (s.ctx m.target).ledger.room m.ledgerNeed

/-- Release a command whose conditions hold; one whose records do not fit waits, counted once (R528, R542). -/
def State.releaseOrWait (s : State) (m : Cmd) (hdrs : List (Option Bytes)) : State :=
  if s.roomFor m then s.release m hdrs
  else if m.roomWait then s
  else (s.modCmd m.handle fun c => { c with roomWait := true }).bumpFw m.target 25 1

/-- What COMMAND_RELEASE does to a waiting command. -/
def State.tryRelease (s : State) (m : Cmd) (hdrs : List (Option Bytes)) : State :=
  if s.depsFailed m then s.drop m 0x0C
  else if ownStep m.op || !s.condsMet m || (m.flags.testBit 1 && !m.due) || s.releaseHeld m then s
  else s.releaseOrWait m hdrs

/-- Can the release of a command go on now? -/
def State.releasable (s : State) (m : Cmd) : Bool :=
  s.serving && s.board.warm.isNone && m.st == .waiting &&
    (s.depsFailed m || (!ownStep m.op && s.condsMet m && (!m.flags.testBit 1 || m.due) && !s.releaseHeld m))

/-- COMMAND_RELEASE (R336, R337): a fetched command whose conditions are met is released and starts its work. The operand holds the ring
headers that an OPEN_CONTEXT reads (R332). -/
def execCommandRelease (h : Word) (hdrs : List (Option Bytes)) (s : State) : Host.Outcome State Fault Refusal :=
  match s.cmd h with
  | none => idle s
  | some m => when (s.releasable m) s fun s => s.tryRelease m hdrs

/-- The row of one opcode: the release of a command of that opcode. -/
def releaseRow (op : Nat) (h : Word) (hdrs : List (Option Bytes)) (s : State) : Host.Outcome State Fault Refusal :=
  match s.cmd h with
  | none => idle s
  | some m => when (m.op == op && s.releasable m) s fun s => s.tryRelease m hdrs

/-- The row of an opcode whose work may wait after its release: the release, or, once released, the end of the wait. -/
def waitingRow (op : Nat) (h : Word) (past : State → Cmd → Bool) (go : State → Cmd → State) (s : State) :
    Host.Outcome State Fault Refusal :=
  match s.cmd h with
  | none => idle s
  | some m =>
    if m.st == .waiting then when (m.op == op && s.releasable m) s fun s => s.tryRelease m []
    else when (m.op == op && s.serving && m.st == .released && past s m) s fun s => go s m

/-- OPEN_CONTEXT (R357 to R359). -/
def execOpenContext (h : Word) (hdrs : List (Option Bytes)) (s : State) : Host.Outcome State Fault Refusal := releaseRow 0x01 h hdrs s

/-- CLOSE_CONTEXT (R345, R379). -/
def execCloseContext (h : Word) (s : State) : Host.Outcome State Fault Refusal :=
  waitingRow 0x02 h (fun s m => (s.cmdsOf m.target).isEmpty && (s.ctx m.target).st != .scrubbing) (fun s m => s.closeOn m) s

/-- LOAD_GEN (R276, R277, R297, R344). -/
def execLoadGen (h : Word) (s : State) : Host.Outcome State Fault Refusal := releaseRow 0x10 h [] s

/-- UNLOAD_GEN (R296). -/
def execUnloadGen (h : Word) (s : State) : Host.Outcome State Fault Refusal := releaseRow 0x11 h [] s

/-- LOAD_TABLE (R274). -/
def execLoadTable (h : Word) (s : State) : Host.Outcome State Fault Refusal := releaseRow 0x13 h [] s

/-- OPEN_SEQ (R293). -/
def execOpenSeq (h : Word) (s : State) : Host.Outcome State Fault Refusal := releaseRow 0x20 h [] s

/-- CLOSE_SEQ (R296): it waits for a running STEP of its sequence. -/
def execCloseSeq (h : Word) (s : State) : Host.Outcome State Fault Refusal :=
  waitingRow 0x21 h (fun s m => !s.seqBusy m.target (leAt m.body 0 4)) (fun s m => s.closeSeq m) s

/-- MIGRATE_SEQ (R295). -/
def execMigrateSeq (h : Word) (s : State) : Host.Outcome State Fault Refusal := releaseRow 0x22 h [] s

/-- SEQ_MIGRATE_APPLY (R295): the STEP that held a migration back has completed. -/
def execSeqMigrateApply (h : Word) (s : State) : Host.Outcome State Fault Refusal :=
  match s.cmd h with
  | none => idle s
  | some m => when (s.serving && m.op == 0x22 && m.st == .released && !s.seqBusy m.target (leAt m.body 0 4)) s fun s => s.migrateSeq m

/-- STEP (R234, R294, R302, R343). -/
def execStepCmd (h : Word) (s : State) : Host.Outcome State Fault Refusal := releaseRow 0x30 h [] s

/-- LAUNCH (R234, R361). -/
def execLaunch (h : Word) (s : State) : Host.Outcome State Fault Refusal := releaseRow 0x31 h [] s

/-- COPY (R346). -/
def execCopyCmd (h : Word) (s : State) : Host.Outcome State Fault Refusal := releaseRow 0x40 h [] s

/-- FILL (R346). -/
def execFill (h : Word) (s : State) : Host.Outcome State Fault Refusal := releaseRow 0x41 h [] s

/-- OPEN_WINDOW (R404). -/
def execOpenWindow (h : Word) (s : State) : Host.Outcome State Fault Refusal := releaseRow 0x50 h [] s

/-- CLOSE_WINDOW (R404). -/
def execCloseWindow (h : Word) (s : State) : Host.Outcome State Fault Refusal :=
  waitingRow 0x51 h (fun s m => !s.windowBusy m.target (leAt m.body 0 1)) (fun s m => s.closeWindow m) s

/-- COLLECTIVE (R416 to R426). -/
def execCollective (h : Word) (s : State) : Host.Outcome State Fault Refusal := releaseRow 0x52 h [] s

/-- FENCE (R342): it completes once the commands before it have. -/
def execFenceCmd (h : Word) (s : State) : Host.Outcome State Fault Refusal := releaseRow 0x60 h [] s

/-- QUERY (R346). -/
def execQuery (h : Word) (s : State) : Host.Outcome State Fault Refusal := releaseRow 0x70 h [] s

/-- SCRUB (R258). -/
def execScrub (h : Word) (s : State) : Host.Outcome State Fault Refusal := releaseRow 0x72 h [] s

/-! ## Commands with an order step of their own, at the boundary (R339) -/

/-- May a command with its own order step act at this boundary: dependencies and earlier commands done, and its turn, if it names one,
reached? A command fetched in this very turn's first instant counts as fetched before it. -/
def State.actsNow (s : State) (m : Cmd) : Bool :=
  m.st == .waiting && s.condsMet m && !s.depsFailed m && (!m.flags.testBit 1 || m.turn ≤ s.turn.count)

/-- Is the deadline of a command reached by this boundary (R340)? -/
def State.deadlineNow (s : State) (m : Cmd) : Bool := m.deadline.any fun d => d ≤ s.turn.count

/-- Mark a command as released at this boundary. -/
def State.markReleased (s : State) (m : Cmd) : State × Cmd :=
  let late := m.flags.testBit 1 && m.turn < s.turn.lowest
  let m := { m with st := .released, turnRel := s.turn.count, late }
  (s.modCmd m.handle fun _ => m, m)

/-- The turn whose boundary a command is scheduled for: the one that it names, a WAIT_TURN the one that it awaits, and the one after its fetch if
that is later or it names none (R338, R339). -/
def Cmd.dueTurn (m : Cmd) : Nat :=
  max (m.fetchTurn.toNat + 1) (max (if m.flags.testBit 1 then m.turn.toNat else 0) (if m.op = 0x61 then leAt m.body 0 8 else 0))

/-- Commands of an opcode in ascending turn, and within a turn in ring and fetch order (R40, R41). -/
def State.inOrder (s : State) (op : Nat) : List Word :=
  (sortBy (fun (m : Cmd) => (m.dueTurn * 2 ^ 64 + ringKey m.ring) * 2 ^ 64 + m.order) (s.cmds.filter fun m => m.op == op)).map fun m => m.handle

/-- What becomes of one command in its own order step: it acts, is cancelled for a dependency, or times out. -/
def State.ownStepOf (s : State) (h : Word) (act : State → Cmd → State) : State :=
  match s.cmd h with
  | none => s
  | some m =>
    if m.st != .waiting then s
    else if s.depsFailed m then s.drop m 0x0C
    else if s.actsNow m then act s m
    else if s.deadlineNow m then s.drop m 0x04 else s

/-- SET_GEN in order step 6 (R291, R292, R339). One whose generation is under verification or repair is held, and one whose record does not
fit waits (R528). -/
def State.setGens (s : State) : State :=
  (s.inOrder 0x12).foldl (fun s h => s.ownStepOf h fun s m =>
    if s.setGenHeld m.target (leAt m.body 0 2) then (if s.deadlineNow m then s.drop m 0x04 else s)
    else if !s.roomFor m then
      (if s.deadlineNow m then s.drop m 0x04 else if m.roomWait then s
       else (s.modCmd h fun c => { c with roomWait := true }).bumpFw m.target 25 1)
    else
      let r := s.markReleased m
      r.1.applySetGen r.2) s

/-- WAIT_TURN in order step 8 (R339): it completes at the first boundary of the turn awaited or a later one. -/
def State.waitTurns (s : State) : State :=
  (s.inOrder 0x61).foldl (fun s h => s.ownStepOf h fun s m =>
    if leAt m.body 0 8 ≤ s.turn.count.toNat then
      let r := s.markReleased m
      r.1.okCmd h 0
    else if s.deadlineNow m then s.drop m 0x04 else s) s

/-- SEAL_LEDGER commands that act at this boundary: they are released, in order of their rings (R536). -/
def State.sealCmds (s : State) (x : Nat) : State × List Cmd :=
  (s.inOrder 0x71).foldl (fun (a : State × List Cmd) h =>
    match a.1.cmd h with
    | none => a
    | some m =>
      if m.target != x || m.st != .waiting then a
      else if a.1.depsFailed m then (a.1.drop m 0x0C, a.2)
      else if a.1.actsNow m then
        let r := a.1.markReleased m
        (r.1, a.2 ++ [r.2])
      else if a.1.deadlineNow m then (a.1.drop m 0x04, a.2) else a) (s, [])

/-- The seals of order step 3 (R528, R536, R543): one for each context that has a cause. -/
def State.sealStep (s : State) : State :=
  (s.ctxs.map fun e => e.1).foldl (fun s x =>
    if (s.ctx x).st ∈ [.closed, .opening, .broken, .scrubbing, .recoverable] then s
    else
      let r := s.sealCmds x
      let cause := r.1.sealDue x + if r.2.isEmpty then 0 else 1
      if cause = 0 then r.1
      else
        let s := r.1.seal x cause (r.2.head?.map fun m => m.handle) s.gov.st.code
        let n := ((s.ctx x).ledger.lastSeal).getD 0
        r.2.foldl (fun s m => s.okCmd m.handle (BitVec.ofNat 64 n)) s) s

/-- Handles of the waiting commands whose dependencies or earlier commands are not complete. -/
def State.heldBack (s : State) : List Word := (s.cmds.filter fun m => m.st == .waiting && !s.condsMet m).map fun m => m.handle

/-- Release in order step 8 (R39, R338, R340) of commands with AT_TURN, and of those among `held` whose conditions a completion in this step
has met, in ascending turn and fetch order, as often as a completion may meet another's conditions; then deadlines. An OPEN_CONTEXT is
found due here, and released with its headers by the row that brings them. -/
def State.releasePass (s : State) (held : List Word) : Nat → State
  | 0 => s
  | n + 1 =>
    let go : State → Cmd → State := fun s m =>
      match s.cmd m.handle with
      | none => s
      | some m =>
        if m.st != .waiting || ownStep m.op || m.due then s
        else if s.depsFailed m then s.drop m 0x0C
        else if (if m.flags.testBit 1 then m.turn ≤ s.turn.count else m.handle ∈ held) && s.condsMet m && !s.releaseHeld m then
          (if m.op = 0x01 then s.modCmd m.handle fun c => { c with due := true } else s.releaseOrWait m [])
        else s
    State.releasePass ((sortBy (fun (m : Cmd) => m.dueTurn * 2 ^ 64 + m.order) s.cmds).foldl go s) held n

/-- Commands not released by order step 8 of their deadline complete as TIMED_OUT (R340). -/
def State.deadlines (s : State) : State :=
  s.cmds.foldl (fun s m => match s.cmd m.handle with
    | none => s
    | some m => if m.st == .waiting && !ownStep m.op && !m.due && s.deadlineNow m then s.drop m 0x04 else s) s

/-- DEADLINE_EXPIRY (R340): the boundary of a command's deadline has passed without its release. -/
def execDeadlineExpiry (h : Word) (s : State) : Host.Outcome State Fault Refusal :=
  match s.cmd h with
  | none => idle s
  | some m => when (s.serving && m.st == .waiting && (ownStep m.op || !m.due) && s.deadlinePassed m) s fun s => s.drop m 0x04

/-- The row of a command with its own order step: with its conditions met it is scheduled, and a later boundary makes it act; with a
failed dependency it ends here (R337, R339; log entry 24). -/
def scheduleRow (op : Nat) (h : Word) (s : State) : Host.Outcome State Fault Refusal :=
  match s.cmd h with
  | none => idle s
  | some m =>
    when (s.serving && m.op == op && m.st == .waiting && (s.depsFailed m || s.condsMet m)) s fun s =>
      if s.depsFailed m then s.drop m 0x0C else s.modCmd h fun c => { c with due := true }

/-- SET_GEN (R292): it acts in order step 6, see `State.setGens`. -/
def execSetGen (h : Word) (s : State) : Host.Outcome State Fault Refusal := scheduleRow 0x12 h s

/-- WAIT_TURN (R339): it acts in order step 8, see `State.waitTurns`. -/
def execWaitTurn (h : Word) (s : State) : Host.Outcome State Fault Refusal := scheduleRow 0x61 h s

/-- SEAL_LEDGER (R536): it acts in order step 3, see `State.sealStep`. -/
def execSealLedger (h : Word) (s : State) : Host.Outcome State Fault Refusal := scheduleRow 0x71 h s

/-! ## PLACEMENT_BETWEEN_BOUNDARIES (R363) -/

/-- Do the unused physical shelves of a core hold a logical core's shelves, or do they lie there already? -/
def State.fits (s : State) (x k c : Nat) : Bool :=
  (s.lcore x k).home == some c || ((s.lcore x k).home.isNone && (s.ctx x).req.shelves ≤ (s.unusedShelves c).length)

/-- Cores that a context which has waited 2Q turns may not lose (R364). -/
def State.reservedFor (s : State) (x c : Nat) : Bool :=
  s.ctxs.any fun e => e.1 != x && e.2.st == .waiting &&
    2 * Tab.look s.net.slice 4 (s.partOfCtx e.1) ≤ s.turn.count.toNat - e.2.waitStart.toNat &&
    s.partOfCtx e.1 == s.partOfCtx x && s.qualifies e.2.req e.2.width c

/-- May a context be placed on a core between boundaries: the core is free and not reserved, and a logical core of the context is resident there or it
has room for one (R363, R364)? -/
def State.placeable (s : State) (x c : Nat) : Bool :=
  let cx := s.ctx x
  s.coreFree c && !s.reservedFor x c &&
    (cx.req.shelves ≤ (s.unusedShelves c).length || (List.range cx.req.cores).any fun k => (s.lcore x k).home == some c)

/-- PLACEMENT_BETWEEN_BOUNDARIES (R363): a waiting context is placed where no shelf needs to be evicted or moved. -/
def execPlacementBetweenBoundaries (x : Nat) (s : State) : Host.Outcome State Fault Refusal :=
  match s.chooseCores x (s.placeable x) true with
  | none => idle s
  | some l => when (s.serving && s.turn.st.counts && (s.ctx x).st == .waiting && l.zipIdx.all fun e => s.fits x e.2 e.1) s
      fun s => s.placeCtx x l

end Sys2Proof.Machine
end

