-- ==== Sys2Proof/Machine/Mgmt.lean ====
section
/-! DEFINITION. Who may ask what over the management port: ownership, identities and roles, failures and blocked sources (R502 to R506). -/

namespace Sys2Proof.Machine

/-- A minute, in ticks of 10 ns. -/
def ticksMinute : Nat := 60 * ticksSecond

/-- Roles of R504: configuration, and reading. -/
def roleConfig : List Role := [.admin, .operator]
/-- See `roleConfig`. -/
def roleAdmin : List Role := [.admin]
/-- See `roleConfig`. -/
def roleKeys : List Role := [.keysvc]
/-- See `roleConfig`. -/
def roleAny : List Role := [.admin, .operator, .keysvc, .reader]

/-- Does a client hold one of some roles (R503, R504)? A Volud without an owner knows no identity. -/
def State.permits (s : State) (who : Client) (roles : List Role) : Bool :=
  s.sec.owned && who.tls && s.sec.idents.any fun i => i.1 == who.cert && i.2.any fun r => roles.contains r

/-- A refused request: MGMT_AUTH_FAIL at most once per source and turn, and after 10 failures in 60 s every connection of the source is
refused for 60 s (R506). -/
def State.authFail (s : State) (src : Nat) : State :=
  let fails := (s.sec.authFails.filter fun e => s.now < e.2 + ticksMinute) ++ [(src, s.now)]
  let n := (fails.filter fun e => e.1 == src).length
  let s := if src ∈ s.sec.failRaised then s else s.raiseDev 0x0D01 12 0 []
  { s with sec := { s.sec with
      authFails := fails
      failRaised := addNew src s.sec.failRaised
      blocked := if 10 ≤ n then addNew src s.sec.blocked else s.sec.blocked } }

/-- Is the management port up: HM has power (R501), and the security processor runs? -/
def State.mgmtUp (s : State) : Bool := s.board.stage != .off && s.board.stage != .rom

/-- What a management request does: nothing from a blocked source, a failure without the role, else its effect (R503 to R506). -/
def State.manage (s : State) (who : Client) (roles : List Role) (f : State → State) : State :=
  if who.src ∈ s.sec.blocked then s
  else if s.permits who roles then f s
  else (s.authFail who.src).emit (.http 403 [])

/-- A request to anything but the UpdateService: the recovery loader serves none (R554; log entry 25). -/
def State.inService (s : State) (f : State → State) : State := if s.board.stage == .recovery then s.emit (.http 503 []) else f s

/-- A management request. -/
def mgmt (who : Client) (roles : List Role) (s : State) (f : State → State) : Host.Outcome State Fault Refusal :=
  when s.mgmtUp s fun s => s.manage who roles fun s => s.inService f

/-- A management request that concerns the turn unit. -/
def mgmtTurn (who : Client) (roles : List Role) (s : State) (f : State → State) : Host.Outcome State Fault Refusal :=
  whenTurn s.mgmtUp s fun s => s.manage who roles fun s => s.inService f

/-- A management request that may lead to keeper mode. -/
def mgmtHold (who : Client) (roles : List Role) (s : State) (f : State → State) : Host.Outcome State Fault Refusal :=
  whenHold s.mgmtUp s fun s => s.manage who roles fun s => s.inService f

/-- Accept or refuse a request whose role is in order (log entry 25). -/
def State.accept (s : State) (ok : Bool) (f : State → State) : State := if ok then (f s).emit (.http 204 []) else s.emit (.http 400 [])

/-- Accept a change of the configuration: it is answered once the field area holds it (R559). -/
def State.acceptConfig (s : State) (ok : Bool) (f : State → State) : State :=
  if ok then
    let s := f s
    { s with fw := { s.fw with fieldDirty := true, answers := s.fw.answers + 1 }, sec := { s.sec with etag := s.sec.etag + 1 } }
  else s.emit (.http 400 [])

/-- MGMT_BLOCK_EXPIRY (R506): a source that has been blocked for 60 s may connect again. -/
def execMgmtBlockExpiry (src : Nat) (s : State) : Host.Outcome State Fault Refusal :=
  when (s.mgmtUp && src ∈ s.sec.blocked) s fun s =>
    { s with sec := { s.sec with blocked := s.sec.blocked.filter (· != src), authFails := s.sec.authFails.filter fun e => e.1 != src } }

end Sys2Proof.Machine
end

