-- ==== Sys2Proof/Machine/Turns.lean ====
section
/-! DEFINITION. The turn unit: sources, states, marks and PTP (R31 to R53, R600). The boundary itself is in `Boundary`. -/

namespace Sys2Proof.Machine

/-! ## The expected length of a turn, and when the next boundary is due -/

/-- A limit on both sides. -/
def clampInt (v lim : Int) : Int := if lim < v then lim else if v < -lim then -lim else v

/-- Ticks by which PTP slewing changes this turn: at most 100 ppm (R48). -/
def TurnUnit.slewNow (u : TurnUnit) : Int := clampInt u.ptp.slew (u.params.period / 10000)

/-- P' of R600: the PERIOD of the last followed mark under link marks, or until one is followed the P in force before the selection, else P. -/
def TurnUnit.expect (u : TurnUnit) : Nat :=
  match u.params.source with
  | some .marks => match u.lastMark with
    | some m => m.period.toNat
    | none => u.selPeriod
  | _ => u.params.period

/-- Ticks after which this turn ends where nothing else places its end: P', moved by a PTP slew while LOCKED (R48, R600). -/
def TurnUnit.length (u : TurnUnit) : Nat :=
  if u.params.source == some .ptp && u.st == .locked then (u.expect + u.slewNow).toNat else u.expect

/-- Is the first boundary still to come: in UNSET and LOCKING, and until the first turn under the internal source begins (R38)? -/
def TurnUnit.awaitsFirst (u : TurnUnit) : Bool := !u.st.counts || (u.st == .free && u.placed.isSome)

/-- The turn whose boundary is due now, if one is: a boundary that has been placed, at its tick; otherwise the next turn, at P' ticks,
except while a stretch lasts (R38, R46, R51, R600). The counter never decreases (R31). -/
def State.dueTurn (s : State) : Option (BitVec 64) :=
  match s.turn.placed with
  | some (n, at_) => if at_ ≤ s.now && s.turn.count ≤ n then some n else none
  | none =>
    if s.turn.st.counts && !s.turn.stretching && s.turn.length ≤ s.turn.phase.toNat && s.turn.count ≤ s.turn.count + 1 then
      some (s.turn.count + 1)
    else none

/-! ## Entering HOLDOVER and LOST (R45, R50) -/

/-- An event of the turn unit. -/
def State.turnEvent (s : State) (code : Nat) : State := s.raiseDev code 11 0 []

/-- The source is lost: HOLDOVER (R38, R50). -/
def State.enterHoldover (s : State) : State :=
  (s.modTurn TurnUnit.hold).turnEvent 0x0A01

/-- The port followed is the lowest-numbered one that delivered a valid mark in the previous turn; two turns in a row without a valid mark lead
to HOLDOVER (R45). -/
def State.checkSilence (s : State) : State :=
  if s.turn.st != .locked || s.turn.params.source != some .marks then s
  else if 2 ≤ s.turn.silent then s.enterHoldover
  else match s.turn.validPrev with
    | [] => s
    | p :: _ => s.modTurn fun u => { u with followed := some p }

/-- H turns in HOLDOVER: LOST, with a report to the fabric manager over every port whose link is up (R38, R50; log entry 119). -/
def State.checkHoldover (s : State) : State :=
  if s.turn.st == .holdover && s.turn.params.holdLim ≤ s.turn.held then
    let s := s.modTurn fun u => { u with st := .lost }
    ((s.turnEvent 0x0A02).fmReportAll 1 0xFFFF 0 []).sameTurn s
  else s

/-- SOURCE_SILENCE (R45): see `State.checkSilence`, which every boundary makes too. -/
def execSourceSilence (s : State) : Host.Outcome State Fault Refusal :=
  whenTurn (s.turn.st == .locked && s.turn.params.source == some .marks) s State.checkSilence

/-- HOLDOVER_LIMIT (R50): see `State.checkHoldover`, which every boundary makes too. -/
def execHoldoverLimit (s : State) : Host.Outcome State Fault Refusal :=
  whenTurn (s.turn.st == .holdover && s.turn.params.holdLim ≤ s.turn.held) s State.checkHoldover

/-! ## Parameters and the choice of source (R35, R36, R38, R600) -/

/-- Select a source (R36, R38, R600); the source in force stays as it is. `p0` is the period in force before the selection. -/
def State.selectSource (s : State) (p0 : Nat) (v : TurnSource) : State :=
  if s.turn.params.source == some v then s
  else
    let base : TurnUnit := { s.turn with
      params := { s.turn.params with source := some v }
      selPeriod := p0
      lastMark := none, followed := none, silent := 0, validPrev := [], marksNow := [], conflict := false, clearing := false
      stretching := false, placed := none, ptp := { s.turn.ptp with good := 0, gm := none, pendingRx := none, delayReq := none, slew := 0 } }
    if s.turn.st.counts then
      (if v == .internal then { s with turn := { base with st := .free, held := 0 } }
       else ({ s with turn := base }).enterHoldover)
    else if v == .internal then
      { s with turn := { base with st := .free, placed := some (BitVec.ofNat 64 base.params.start, s.now + base.params.period) } }
    else { s with turn := { base with st := .locking } }

/-- The parameters after a change. -/
def TurnParams.change (p : TurnParams) (c : TurnChange) : TurnParams :=
  match c with
  | .source v => { p with source := some v }
  | .period v => { p with period := v }
  | .epoch v => { p with epoch := v }
  | .startValue v => { p with start := v }
  | .inputPorts v => { p with inPorts := v }
  | .outputPorts v => { p with outPorts := v }
  | .lead v => { p with lead := v }
  | .holdover v => { p with holdLim := v }
  | .stretch v => { p with stretchLim := v }
  | .jump v => { p with jumpLim := v }
  | .ptpDomain v => { p with ptpDomain := v }

/-- Put a change of R36 into effect, at an instant before which the period was `p0`. -/
def State.applyTurnChange (s : State) (p0 : Nat) (c : TurnChange) : State :=
  match c with
  | .source v => s.selectSource p0 v
  | c => s.modTurn fun u => { u with params := u.params.change c }

/-- The turn for which a change is filed: the one named, or the next one if none is named or the named one has passed (R36); before the
first boundary the turn named, which that boundary brings up to its own (`State.firstFiling`). -/
def TurnUnit.fileTurn (u : TurnUnit) (named : Option Nat) : Nat :=
  match u.placed with
  | some (n, _) => max (named.getD 0) n.toNat
  | none => if u.st.counts then max (named.getD 0) (u.count.toNat + 1) else named.getD 0

/-- Do period and lead keep L < P / 2 after the changes of every turn, in ascending turn and as received within a turn (R35, R36)? -/
def leadsOk : TurnParams → List (Nat × TurnChange) → Bool
  | p, [] => 2 * p.lead < p.period
  | p, e :: l =>
    let q := p.change e.2
    ((l.head?.any fun f => f.1 == e.1) || 2 * q.lead < q.period) && leadsOk q l

/-- Would a change filed for a turn keep L < P / 2 at every boundary to come (R35)? -/
def TurnUnit.leadFits (u : TurnUnit) (turn : Nat) (c : TurnChange) : Bool :=
  if u.st.counts then leadsOk u.params (sortBy (fun (e : Nat × TurnChange) => e.1) (u.sched ++ [(turn, c)]))
  else leadsOk u.params [(0, c)]

/-- Is a value in the range that R35 or R47 gives? -/
def TurnUnit.inRange (u : TurnUnit) (turn : Nat) (c : TurnChange) : Bool :=
  match c with
  | .source _ => true
  | .period v => 10000 ≤ v && v ≤ 1000000000 && u.leadFits turn c
  | .epoch v => v < 2 ^ 64
  | .startValue v => v < 2 ^ 64
  | .inputPorts _ => true
  | .outputPorts _ => true
  | .lead v => 500 ≤ v && v ≤ 100000 && u.leadFits turn c
  | .holdover v => 1 ≤ v && v ≤ 65535
  | .stretch v => 1 ≤ v && v ≤ 1024
  | .jump v => 1 ≤ v && v ≤ 1048576
  | .ptpDomain v => v ≤ 127

/-- TURN_SOURCE_SELECT (R34 to R36): at once in UNSET and LOCKING, else at the boundary named, or the next; refused while HT has no power. -/
def execTurnSourceSelect (who : Client) (turn : Option Nat) (c : TurnChange) (s : State) : Host.Outcome State Fault Refusal :=
  mgmtTurn who roleConfig s fun s =>
    let n := s.turn.fileTurn turn
    s.acceptConfig (s.htUp && s.turn.inRange n c) fun s =>
      if s.turn.st.counts then s.modTurn fun u => { u with sched := u.sched ++ [(n, c)] }
      else s.applyTurnChange s.turn.params.period c

/-- TURN_CONFLICT_CLEAR (R51): the source's next number is accepted whatever its distance. -/
def execTurnConflictClear (who : Client) (s : State) : Host.Outcome State Fault Refusal :=
  mgmtTurn who roleConfig s fun s => s.accept s.turn.conflict fun s => s.modTurn fun u => { u with clearing := true }

/-! ## The source's number against the count (R51) -/

/-- What the table of R51 says. -/
inductive Relation where
  | normal | jump | stretch | refused
  deriving DecidableEq, Repr

/-- The table of R51 for source number n; a cleared conflict accepts every distance, and a stretch that has begun lasts until the source
reaches c + 1 whatever its distance. -/
def TurnUnit.relation (u : TurnUnit) (n : Nat) : Relation :=
  let c := u.count.toNat
  if u.conflict && !u.clearing then .refused
  else if n = c + 1 then .normal
  else if c + 1 < n then (if n ≤ c + u.params.jumpLim || u.clearing then .jump else .refused)
  else if c < n + u.params.stretchLim || u.clearing || u.stretching then .stretch
  else .refused

/-- A number refused: TURN_CONFLICT at most once per turn (R51). -/
def State.refuseNumber (s : State) : State :=
  let raised := s.turn.conflictRaised
  let s := s.modTurn fun u => { u with conflict := true, conflictRaised := true }
  if raised then s else s.turnEvent 0x0A05

/-- Back to LOCKED when the source returns (R50, R51). -/
def TurnUnit.relock (u : TurnUnit) : TurnUnit :=
  if u.st == .holdover || u.st == .lost then { u with st := .locked, held := 0, silent := 0 } else u

/-- Act on number n of the source, whose boundary falls at tick `at_` (R51); answered with whether it was accepted. -/
def State.followNumber (s : State) (n at_ : Nat) : State × Bool :=
  let u := s.turn
  let at_ := max at_ s.now
  let free : TurnUnit := { u.relock with conflict := false, clearing := false }
  if u.st == .locking then ({ s with turn := { u with placed := some (BitVec.ofNat 64 n, at_) } }, true)
  else match u.relation n with
    | .normal => ({ s with turn := { free with placed := some (BitVec.ofNat 64 n, at_), stretching := false } }, true)
    | .jump => (({ s with turn := { free with placed := some (BitVec.ofNat 64 n, at_), stretching := false } } : State).turnEvent 0x0A03, true)
    | .stretch =>
      if u.stretching then ({ s with turn := free }, true)
      else (({ s with turn := { free with placed := none, stretching := true } } : State).turnEvent 0x0A04, true)
    | .refused => (s.refuseNumber, false)

/-! ## Link marks (R42 to R46) -/

/-- One-way delay of a port in ticks (R46). -/
def State.delayOf (s : State) (p : Nat) : Nat := (s.port p).delay

/-- Discard a mark, and count it (R44, R414). -/
def State.discardMark (s : State) (p : Nat) : State :=
  (s.modTurn fun u => { u with discards := u.discards.add 1 }).bumpPort p 12 1

/-- Is a mark one that the Volud may follow (R44)? -/
def State.markOk (s : State) (p : Nat) (m : Mark) : Bool :=
  (s.port p).st == .up && (s.port p).authed && s.turn.params.inPorts.getLsbD p && m.hops < 15 && m.root != s.factory.device

/-- TURN_DISAGREE where the marks of this turn on two ports differ, once per turn (R45). -/
def State.checkAgree (s : State) : State :=
  match s.turn.followed.bind fun f => Tab.opt s.turn.marksNow f with
  | none => s
  | some r =>
    match s.turn.marksNow.find? fun e => e.2.turn != r.turn || e.2.root != r.root with
    | none => s
    | some e =>
      if s.turn.disagreeRaised then s
      else (s.modTurn fun u => { u with disagreeRaised := true }).raiseDev 0x0A06 8 e.1 []

/-- A mark for the port that is followed: its number is acted on, and its boundary placed at t + L − d (R46, R51). -/
def State.followMark (s : State) (p : Nat) (m : Mark) : State :=
  let r := s.followNumber m.turn.toNat (s.now + m.lead.toNat - s.delayOf p)
  if r.2 then
    (r.1.modTurn fun u => { u with followed := some p, lastMark := some m, marksNow := Tab.ins u.marksNow p m }).checkAgree
  else r.1

/-- MARK (R42 to R46, R51, R412). -/
def execMark (p : Nat) (m : Mark) (s : State) : Host.Outcome State Fault Refusal :=
  whenTurn (p < 8 && (s.port p).st == .up) s fun s =>
    let s := (s.bumpPort p 1 1).bumpPort p 11 1
    if !s.markOk p m then s.discardMark p
    else if s.turn.params.source != some .marks then s
    else match s.turn.followed with
      | some f =>
        if p != f && (f ∈ s.turn.validPrev || (Tab.opt s.turn.marksNow f).isSome) then
          (s.modTurn fun u => { u with marksNow := Tab.ins u.marksNow p m }).checkAgree
        else s.followMark p m
      | none => s.followMark p m

/-- The mark that this Volud sends, if it sends one (R42): its root, and its hop count. -/
def State.markSource (s : State) : Option (BitVec 64 × Nat) :=
  match s.turn.params.source with
  | some .marks => s.turn.lastMark.map fun m => (m.root, m.hops + 1)
  | some _ => some (s.factory.device, 0)
  | none => none

/-- Output ports that carry marks: an input port is no output (R37), and its link is up. -/
def State.markPorts (s : State) : List Nat :=
  (List.range 8).filter fun p => s.turn.params.outPorts.getLsbD p && !s.turn.params.inPorts.getLsbD p && (s.port p).st == .up

/-- MARK_EMIT (R42, R43): at phase P − L, under link marks P' − L, once in a turn, and not before the first boundary; PERIOD is this Volud's
own P. -/
def execMarkEmit (s : State) : Host.Outcome State Fault Refusal :=
  match s.markSource with
  | none => idle s
  | some (root, hops) =>
    whenTurn (s.turn.st.counts && !s.turn.emitted && !(s.turn.st == .free && s.turn.placed.isSome) &&
        s.turn.expect ≤ s.turn.phase.toNat + s.turn.params.lead) s fun s =>
      let m : Mark := { turn := s.turn.count + 1, period := BitVec.ofNat 32 s.turn.params.period
                        lead := BitVec.ofNat 32 s.turn.params.lead, root, hops := min hops 255 }
      s.markPorts.foldl (fun s p => (s.bumpPort p 0 1).emit (.mark p m)) (s.modTurn fun u => { u with emitted := true })

/-- PHASE_LIMIT (R32): a phase that would pass 2^32 − 1 outside a stretch forces a boundary. -/
def execPhaseLimit (s : State) : Host.Outcome State Fault Refusal :=
  whenTurn (s.turn.st.counts && !s.turn.stretching && s.turn.phase == BitVec.allOnes 32) s fun s =>
    (s.modTurn fun u => { u with placed := some (u.count + 1, s.now) }).turnEvent 0x0A04

/-! ## PTP (R47 to R49; log entry 26) -/

/-- Ticks from now to the boundary of turn n, when PTP time is `t` ns now. -/
def TurnUnit.ptpUntil (u : TurnUnit) (t n : Nat) : Int := (((u.params.epoch + n * u.params.period * 10 : Nat) : Int) - t) / 10

/-- The number of the next boundary at PTP time `t`. -/
def TurnUnit.ptpNext (u : TurnUnit) (t : Nat) : Nat :=
  if t < u.params.epoch then 0 else (t - u.params.epoch) / (10 * u.params.period) + 1

/-- Place the next boundary where PTP time puts it (R48, R51): a stretch ends where PTP time reaches the boundary of turn c + 1. -/
def State.ptpPlace (s : State) (t : Nat) : State :=
  let n := s.turn.ptpNext t
  let s := (s.followNumber n (s.now + (s.turn.ptpUntil t n).toNat)).1
  if s.turn.stretching then
    s.modTurn fun u => { u with placed := some (u.count + 1, s.now + (u.ptpUntil t (u.count.toNat + 1)).toNat) }
  else s

/-- A Sync message whose origin time is known: `rx` is the local clock's reading at its arrival, `arr` the tick; a Delay_Req is sent for it
(R47 to R49). From LOCKING any one Sync is the first valid indication; from HOLDOVER and LOST it is the eighth in a row with an offset below
10 µs. While LOCKED a correction in one step is under way, or a stretch lasts, each Sync places the boundary afresh; a change of P or E is
slewed to or corrected in one step as the offset of the next Sync says (log entry 26). -/
def State.ptpIndication (s : State) (origin rx arr gm : Nat) : State :=
  let t := origin + s.turn.ptp.pathDelay
  let off : Int := (rx : Int) - t
  let small : Bool := off.natAbs < 10000
  let sent := rx + 10 * (s.now - arr)
  let s := (s.modTurn fun u => { u with ptp := { u.ptp with
    gm := some gm, offset := off, pendingRx := none, delayReq := some (origin, rx, sent)
    good := if small then u.ptp.good + 1 else 0 } }).emit (.delayReq s.turn.params.ptpDomain)
  let t := t + 10 * (s.now - arr)
  match s.turn.st with
  | .locking => s.ptpPlace t
  | .locked =>
    if 10000 < off.natAbs || s.turn.placed.isSome || s.turn.stretching then s.ptpPlace t
    else s.modTurn fun u => { u with ptp := { u.ptp with
      slew := u.ptpUntil t (u.count.toNat + 1) - ((u.params.period : Int) - u.phase.toNat) } }
  | .holdover => if 8 ≤ s.turn.ptp.good then s.ptpPlace t else s
  | .lost => if 8 ≤ s.turn.ptp.good then s.ptpPlace t else s
  | _ => s

/-- A change of the grandmaster identity sends a LOCKED unit to HOLDOVER (R49). -/
def State.ptpMaster (s : State) (gm : Nat) : State :=
  let changed := s.turn.ptp.gm.any fun g => g != gm
  let s := s.modTurn fun u => { u with ptp := { u.ptp with gm := some gm, good := if changed then 0 else u.ptp.good } }
  if changed && s.turn.st == .locked then s.enterHoldover else s

/-- Does a PTP message count: PTP is the source, the unit has power, and the message is of the selected domain (R47)? -/
def State.ptpOn (s : State) (domain : Nat) : Bool :=
  s.turn.params.source == some .ptp && s.htUp && domain == s.turn.params.ptpDomain

/-- PTP_SYNC (R47 to R49): of a one-step master, or of a two-step one, whose Follow_Up is then awaited. -/
def execPtpSync (origin : PtpStamp) (rx : Nat) (twoStep : Bool) (gm : Nat) (s : State) : Host.Outcome State Fault Refusal :=
  whenTurn (s.mgmtUp && s.ptpOn origin.domain) s fun s =>
    let s := s.ptpMaster gm
    if twoStep then s.modTurn fun u => { u with ptp := { u.ptp with pendingRx := some (rx, s.now) } }
    else s.ptpIndication origin.time rx s.now gm

/-- PTP_FOLLOW_UP (R47). -/
def execPtpFollowUp (origin : PtpStamp) (s : State) : Host.Outcome State Fault Refusal :=
  match s.turn.ptp.pendingRx with
  | none => idle s
  | some (rx, arr) => whenTurn (s.mgmtUp && s.ptpOn origin.domain) s fun s => s.ptpIndication origin.time rx arr (s.turn.ptp.gm.getD 0)

/-- PTP_DELAY_RESP (R47): the master's time of receipt t4 of the Delay_Req; the path delay of the end-to-end mechanism is
((t2 − t1) + (t4 − t3)) / 2, in ns. -/
def execPtpDelayResp (receipt : PtpStamp) (s : State) : Host.Outcome State Fault Refusal :=
  match s.turn.ptp.delayReq with
  | none => idle s
  | some (t1, t2, t3) => whenTurn (s.mgmtUp && s.ptpOn receipt.domain) s fun s =>
      s.modTurn fun u => { u with ptp := { u.ptp with
        pathDelay := ((((t2 : Int) - t1) + ((receipt.time : Int) - t3)) / 2).toNat, delayReq := none } }

/-- PTP_ANNOUNCE (R49). -/
def execPtpAnnounce (m : PtpMaster) (s : State) : Host.Outcome State Fault Refusal :=
  whenTurn (s.mgmtUp && s.ptpOn m.domain) s fun s => s.ptpMaster m.gm

/-- PTP_SYNC_TIMEOUT (R49): no Sync message for 3 s. -/
def execPtpSyncTimeout (s : State) : Host.Outcome State Fault Refusal :=
  whenTurn (s.mgmtUp && s.ptpOn s.turn.params.ptpDomain) s fun s =>
    let s := s.modTurn fun u => { u with ptp := { u.ptp with good := 0, pendingRx := none, delayReq := none } }
    if s.turn.st == .locked then s.enterHoldover else s

/-! ## Order step 1 of a boundary (R31, R36, R39, R41) -/

/-- The counter becomes n and the phase 0; per-turn state starts anew. The unit that its first valid indication found LOCKING is LOCKED from the
boundary that the indication placed, its first (log entry 118). -/
def TurnUnit.begin_ (u : TurnUnit) (n : BitVec 64) : TurnUnit :=
  { u with
    count := n
    phase := 0
    lowest := if u.awaitsFirst || n < u.count + 1 then n else u.count + 1
    validPrev := u.marksNow.map fun e => e.1
    marksNow := []
    emitted := false
    conflictRaised := false
    disagreeRaised := false
    stretching := false
    placed := none
    silent := if u.marksNow.isEmpty then u.silent + 1 else 0
    held := if u.st == .holdover || u.st == .lost then min (u.held + 1) 65535 else 0
    ptp := { u.ptp with slew := u.ptp.slew - (if u.params.source == some .ptp && u.st == .locked then u.slewNow else 0) }
    st := if u.st == .locking then .locked else u.st }

/-- At the first boundary, of turn n, every change held for a turn that has passed is one of turn n (R36, R505). -/
def State.firstFiling (s : State) (n : Nat) : State := { s with sched := s.sched.map fun e => (max e.1 n, e.2) }

/-- Changes of the turn unit due at the boundary of turn n, in the order of their turns, and within a turn in the order received (R36, R41,
R505). -/
def State.turnChanges (s : State) : State :=
  let n := s.turn.count.toNat
  let p0 := s.turn.params.period
  let due := sortBy (fun (e : Nat × TurnChange) => e.1) (s.turn.sched.filter fun e => e.1 ≤ n)
  let s := s.modTurn fun u => { u with sched := u.sched.filter fun e => n < e.1 }
  due.foldl (fun s e => s.applyTurnChange p0 e.2) s

/-- Order step 1 (R39). -/
def State.stepOne (s : State) (n : BitVec 64) : State :=
  let first := s.turn.awaitsFirst
  let fresh := s.turn.st == .locking
  let s := s.modTurn fun u => u.begin_ n
  let s := if fresh then s.modTurn fun u => { u with silent := 0 } else s
  let s := s.checkSilence.checkHoldover
  (if first then s.firstFiling n.toNat else s).turnChanges

end Sys2Proof.Machine
end

