-- ==== Sys2Proof/Machine/Serve.lean ====
section
/-! DEFINITION. Messages from the fabric and from this Volud's own hub: operations on windows, their answers, time-outs, and notices of
nodes down and up (R150, R396 to R411, R423, R433, R436). -/

namespace Sys2Proof.Machine

/-! ## A port in trouble (R394, R395, R412) -/

/-- RECOVERING, with the retry state kept (R395). -/
def State.recover (s : State) (p : Nat) : State :=
  if (s.port p).st == .up then (s.modPort p fun o => { o with st := .recovering, nakOut := false, nakRun := 0, nakRx := 0 }).bumpPort p 6 1 else s

/-- LINK_PROTOCOL is raised (R412). -/
def State.linkProtocol (s : State) (p : Nat) : State := s.raise { code := 0x0807, unit := 8, index := p }

/-- RECOVERING after a breach of the link protocol (R412). -/
def State.protocolError (s : State) (p : Nat) : State := (s.linkProtocol p).recover p

/-- A malformed message: counted and answered where that is possible; more than 16 in 1 ms send the port to RECOVERING (R412). -/
def State.malformed (s : State) (v : Via) (p : Nat) (m : Msg) : State :=
  let l := ((s.port p).malformed.filter fun t => s.now < t + ticksMs) ++ [s.now]
  let s := (s.modPort p fun o => { o with malformed := l }).bumpPort p 8 1
  let s := if m.hdr.mtype = 5 then s else s.answer v (respTo m.hdr 0x0B [])
  if 16 < l.length then s.protocolError p else s

/-- Does a message on a port come from where its SRC_NODE may come from (R401)? -/
def State.genuine (s : State) (p : Nat) (h : MsgHdr) : Bool :=
  let r := Tab.look s.net.routes {} h.srcNode
  r.valid && r.port == p && ((s.port p).partner == h.srcNode || s.net.transit.getLsbD (s.partOfPort p))

/-- Forward a message that is not for this Volud, or answer UNREACHABLE (R402). -/
def State.transitOn (s : State) (v : Via) (p : Nat) (m : Msg) : State :=
  let q := s.routePort m.hdr.dstNode
  match (if s.net.transit.getLsbD (s.partOfPort p) && m.hdr.hops < 7 then q else none) with
  | some q =>
    if (s.port q).st == .up && s.partOfPort q == s.partOfPort p then
      (s.bumpPort p 14 1).portSend q { m with hdr := { m.hdr with hops := m.hdr.hops + 1 } }
    else if m.hdr.mtype = 5 then s else s.answer v (respTo m.hdr 0x08 [])
  | none => if m.hdr.mtype = 5 then s else s.answer v (respTo m.hdr 0x08 [])

/-- Receive a message: spoofed, malformed and transit messages are dealt with, and so are requests of an abusing node (R401, R402, R409,
R412). -/
def State.receive (s : State) (v : Via) (m : Msg) (f : State → State) : State :=
  let s := s.take v m
  match v with
  | .hub => f s
  | .port p =>
    if !s.genuine p m.hdr then s.bumpPort p 9 1
    else if !(msgOk m) then s.malformed v p m
    else if !s.isSelf m.hdr.dstNode then s.transitOn v p m
    else if m.hdr.mtype ≤ 3 && m.hdr.srcNode ∈ (s.port p).abusers then s.answer v (respTo m.hdr 0x02 [])
    else f s

/-- A row of one message type. -/
def messageRow (mtype : Nat) (v : Via) (m : Msg) (s : State) (f : State → State) : Host.Outcome State Fault Refusal :=
  when (m.hdr.mtype == mtype && s.serving && s.arriving v m) s fun s => s.receive v m f

/-! ## Collective windows (R422 to R425) -/

/-- What stands behind a window number for collectives. -/
inductive CollWin where
  | none
  | live (h : Word) (c : CollRun)
  | tomb (group cseq : Nat) (short : Bool)
  deriving DecidableEq, Repr

/-- The collective window of a context under a number. -/
def State.collWin (s : State) (x w : Nat) : CollWin :=
  match s.collAt x w with
  | some (h, c) => .live h c
  | none => match Tab.opt (s.ctx x).tombs w with
    | some (g, q, b) => if (Tab.opt (s.ctx x).windows w).isNone then .tomb g q b else .none
    | none => .none

/-- Fields of ROFF in a collective window (R423): TAG, REGION and OFFSET. -/
def roffTag (r : Nat) : Nat := fieldN r 40 8
/-- See `roffTag`. -/
def roffRegion (r : Nat) : Nat := fieldN r 38 2
/-- See `roffTag`. -/
def roffOffset (r : Nat) : Nat := fieldN r 0 38

/-- The answer of a collective window at the distance of a message's TAG from the CSEQ served (R423); none where R150 is applied. -/
def tagAnswer (tag cseq : Nat) : Option Nat :=
  let d := (tag + 256 - cseq % 256) % 256
  if d = 0 then none else if d ≤ 127 then some 0x0C else some 0x00

/-- Length of a region of a collective's window (R423, R425). -/
def CollRun.regionLen (c : CollRun) (region : Nat) : Nat :=
  if region = 0 then c.p * c.entryLen else if region = 1 then c.dst.len else if region = 2 then c.work.len else 0

/-- The buffer behind a region. -/
def CollRun.regionBuf (c : CollRun) (region : Nat) : CollBuf := if region = 1 then c.dst else c.work

/-- The checks of R150 on a PUT into a collective's window: (check, status). -/
def State.collWindowCheck (s : State) (v : Via) (h : MsgHdr) (c : CollRun) : Option (Nat × Nat) :=
  let region := roffRegion h.roff
  let off := roffOffset h.roff
  if !s.permitted v h c.members || !s.samePartition v h || h.op != 0 then some (2, 0x02)
  else if region = 3 || c.regionLen region < off + h.len || (c.short && region != 0) then some (3, 0x03)
  else if 2 ≤ h.rmode then some (4, 0x04)
  else if region = 0 then none
  else if !s.bufReady h.dstCtx (c.regionBuf region) then some (5, 0x0C)
  else if !s.bufFits h.dstCtx (c.regionBuf region) off h.len then some (5, 0x05)
  else none

/-- The rank that sends a message. -/
def State.senderRank (s : State) (v : Via) (h : MsgHdr) (c : CollRun) : Nat :=
  (c.members.findIdx? fun w => w.2 == h.srcCtx && match v with
    | .hub => s.isSelf w.1
    | .port _ => w.1 == h.srcNode).getD 0

/-- Bytes of a PUT arrive in a region of a collective's window (R423, R424, R432). -/
def State.collWrite (s : State) (x : Nat) (w : Word) (c : CollRun) (region off : Nat) (d : Bytes) (poison : Bool) : State :=
  let s := (s.modColl w fun c => { c with heard := true }).bumpFw x 21 d.length
  if region = 0 then (if poison then s else s.modColl w fun c => { c with table := Tab.fill c.table 0 off d })
  else s.bufWrite x (some w) (c.regionBuf region) off d poison

/-- A PUT into a collective's window has arrived whole: count entries that it covers, or data of its sender (R424, R425). -/
def CollRun.arrivedPut (c : CollRun) (rank region off len : Nat) (poison : Bool) : CollRun :=
  if region = 0 then
    let whole := (List.range c.p).filter fun i => off ≤ i * c.entryLen && (i + 1) * c.entryLen ≤ off + len
    if poison then c else { c with tableGot := whole.foldl (fun l i => addNew i l) c.tableGot }
  else { c with recv := addNew (region, rank, off, len) c.recv }

/-- Data of a poisoned PUT: the receiver's part fails as POISONED (R407, R434, R437). -/
def State.collPoisoned (s : State) (w : Word) (c : CollRun) (rank region : Nat) : State :=
  if region = 0 then s else s.modCmd w fun m => m.failPart (if isReduction c.op then 0 else rank) 0x06

/-- Abandon an accepted operation (R408): one into a collective's window poisons the range of its region. -/
def State.abandonOp (s : State) (o : InOp) : State :=
  match s.collWin o.ctx o.window with
  | .live w c =>
    let region := roffRegion o.hdr.roff
    let s := if region = 0 then s.dropIn o.hdr
      else (s.dropIn o.hdr).bufWrite o.ctx (some w) (c.regionBuf region) (roffOffset o.hdr.roff) (List.replicate o.hdr.len 0xFF) true
    s.raise { code := 0x080B, ctx := some o.ctx, unit := 5, detail := [o.window, o.srcNode, o.srcCtx] }
  | _ => s.abandon o

/-! ## PUT, GET and ATOMIC at the target (R397, R404, R407) -/

/-- Remember an accepted PUT of which messages are still to come. -/
def State.keepIn (s : State) (v : Via) (h : MsgHdr) (got : Nat) (poison : Bool) : State :=
  let o : InOp := { srcNode := h.srcNode, srcCtx := h.srcCtx, tag := h.tag, ctx := h.dstCtx, window := h.window, via := v, hdr := h, got, poison }
  { s with fabric := { s.fabric with inOps := s.fabric.inOps ++ [o] } }

/-- One part of a PUT accepted into a collective's window. -/
def State.collPart (s : State) (v : Via) (m : Msg) (w : Word) (c : CollRun) (got : Nat) (poison : Bool) : State :=
  let h := m.hdr
  let region := roffRegion h.roff
  let off := roffOffset h.roff
  let s := (s.collWrite h.dstCtx w c region (off + 4096 * h.part) (msgFull m) h.poison).dropIn h
  let poison := poison || h.poison
  if got + 1 = h.npart then
    let rank := s.senderRank v h c
    let s := s.modColl w fun c => c.arrivedPut rank region off h.len poison
    (if poison then s.collPoisoned w c rank region else s).answer v (respTo h (if poison then 0x06 else 0) [])
  else s.keepIn v h (got + 1) poison

/-- A part of a PUT that a collective's window answers without taking it: the answer comes with PART 0. -/
def State.collAnswer (s : State) (v : Via) (m : Msg) (check status : Nat) : State :=
  if m.hdr.part = 0 then (if check = 0 then s.answer v (respTo m.hdr status []) else s.turnAway v m check status) else s

/-- One message of a PUT. -/
def State.servePut (s : State) (v : Via) (m : Msg) : State :=
  let h := m.hdr
  let open_ := s.inOp h
  let got := (open_.map fun o => o.got).getD 0
  let bad := (open_.map fun o => o.poison).getD false
  if h.part != 0 && (open_.isNone || got != h.part) then s
  else
    let s := if h.part = 0 then s.dropIn h else s
    let got := if h.part = 0 then 0 else got
    let bad := h.part != 0 && bad
    match s.collWin h.dstCtx h.window with
    | .live w c =>
      (match tagAnswer (roffTag h.roff) c.cseq with
       | some st => s.collAnswer v m 0 st
       | none =>
         if h.part != 0 then s.collPart v m w c got bad
         else match s.collWindowCheck v h c with
           | some (check, st) => s.collAnswer v m check st
           | none => s.collPart v m w c got bad)
    | .tomb _ cseq short =>
      let st := match tagAnswer (roffTag h.roff) cseq with
        | some st => st
        | none => if short && roffRegion h.roff != 0 then 0x03 else 0x00
      if h.part + 1 = h.npart && h.part != 0 then (s.dropIn h).answer v (respTo h st []) else s.collAnswer v m 0 st
    | .none =>
      if h.part != 0 then
        (match Tab.opt (s.ctx h.dstCtx).windows h.window with
         | some w => s.putPart v m w got bad
         | none => s.dropIn h)
      else match s.windowCheck v h with
        | some (check, st) => s.turnAway v m check st
        | none => match s.window h.dstCtx h.window with
          | some w => s.putPart v m w got bad
          | none => s

/-- A GET or an ATOMIC: a collective's window permits neither (R422). -/
def State.serveOther (s : State) (v : Via) (m : Msg) (go : Window → State → State) : State :=
  let h := m.hdr
  match s.collWin h.dstCtx h.window with
  | .live _ _ => s.turnAway v m 2 0x02
  | .tomb _ _ _ => s.turnAway v m 2 0x02
  | .none => match s.windowCheck v h with
    | some (check, st) => s.turnAway v m check st
    | none => match s.window h.dstCtx h.window with
      | some w => go w s
      | none => s

/-- PUT (R150, R397, R404, R407, R423). -/
def execPut (v : Via) (m : Msg) (s : State) : Host.Outcome State Fault Refusal := messageRow 1 v m s fun s => s.servePut v m

/-- GET (R397, R407). -/
def execGet (v : Via) (m : Msg) (s : State) : Host.Outcome State Fault Refusal :=
  messageRow 2 v m s fun s => s.serveOther v m fun w s => s.getAnswer v m w

/-- ATOMIC (R152, R228, R407). -/
def execAtomic (v : Via) (m : Msg) (s : State) : Host.Outcome State Fault Refusal :=
  messageRow 3 v m s fun s => s.serveOther v m fun w s => s.atomicAnswer v m w

/-! ## Answers at the requester (R397, R405 to R407, R433) -/

/-- The outstanding operation that an answer belongs to. -/
def State.outOp (s : State) (v : Via) (h : MsgHdr) : Option OutOp :=
  s.fabric.outOps.find? fun o => o.tag == h.tag && o.ctx == h.dstCtx && match v with
    | .hub => s.isSelf o.node
    | .port _ => o.node == h.srcNode

/-- An answer with an unknown tag: discarded and counted (R406, R412). -/
def State.lateAnswer (s : State) (v : Via) : State :=
  match v with
  | .hub => s
  | .port p => s.bumpPort p 10 1

/-- An operation ends with a status, of a core or of a collective. -/
def State.endOp (s : State) (o : OutOp) (status old : Nat) : State :=
  match o.coll with
  | some h => ({ s with fabric := { s.fabric with outOps := s.fabric.outOps.filter fun q => q.tag != o.tag } } : State).collPutDone h o.tag status
  | none => s.finishRemote o.ctx o.lcore o.tag status old

/-- RETRY for an operation of a core: it waits to be resent (R405). -/
def State.waitResend (s : State) (o : OutOp) : State :=
  ({ s with fabric := { s.fabric with outOps := s.fabric.outOps.filter fun q => q.tag != o.tag } } : State).modRemote o.ctx o.lcore o.tag fun r =>
    { r with waiting := true, retries := r.retries + 1, parts := 0, poison := false, firstRetry := some (r.firstRetry.getD s.now) }

/-- RESP (R397, R403, R405). -/
def execResp (v : Via) (m : Msg) (s : State) : Host.Outcome State Fault Refusal :=
  messageRow 5 v m s fun s =>
    match s.outOp v m.hdr with
    | none => s.lateAnswer v
    | some o => if m.hdr.status = 0x0C && o.coll.isNone then s.waitResend o else s.endOp o m.hdr.status (ofLe (m.data.take 8))

/-- One GET_DATA message: its bytes are written where the block says; after the last one the slots are filled and the status record is
written (R228, R397, R407). -/
def State.takeGetData (s : State) (o : OutOp) (m : Msg) : State :=
  let h := m.hdr
  let x := o.ctx
  let k := o.lcore
  match s.remoteOp x k o.tag with
  | none => s
  | some r =>
    if h.part != r.parts || h.len != o.len then s
    else
      let b := rblkOf r.block
      let s := s.localWrite x k (s.eng x k).handle (b.laddr + 4096 * h.part) (msgFull m) h.poison
      let s := s.modRemote x k o.tag fun q => { q with parts := q.parts + 1, poison := q.poison || h.poison }
      if h.part + 1 = h.npart then (s.lslUpdate x k b.lsl true).finishRemote x k o.tag (if r.poison || h.poison then 0x06 else 0) 0
      else s

/-- GET_DATA (R397, R407). -/
def execGetData (v : Via) (m : Msg) (s : State) : Host.Outcome State Fault Refusal :=
  messageRow 4 v m s fun s =>
    match s.outOp v m.hdr with
    | none => s.lateAnswer v
    | some o => if o.coll.isSome || o.op != 1 then s.lateAnswer v else s.takeGetData o m

/-- The core of this Volud, by context and logical core, with an operation that waits to be resent. -/
def State.resender (s : State) (tag : Nat) : Option (Nat × Nat × RemoteOp) :=
  (s.cores.filterMap fun e => match e.2.owner with
    | some (x, k) => (e.2.remotes.find? fun o => o.tag == tag && o.sent && o.waiting).map fun o => (x, k, o)
    | none => none).head?

/-- REMOTE_RETRY_RESEND (R405): the whole operation goes out again, or its retry limit has passed. -/
def execRemoteRetryResend (tag : Nat) (expired : Bool) (s : State) : Host.Outcome State Fault Refusal :=
  match s.resender tag with
  | none => idle s
  | some (x, k, o) => when s.serving s fun s =>
      let node := (rblkOf o.block).node
      let self := s.isSelf node
      let p := if self then none else s.routeFor (some x) node
      let s := s.modRemote x k tag fun r => { r with waiting := false }
      if expired then s.finishRemote x k tag 0x07 0
      else if !self && node ∈ s.fabric.down then s.finishRemote x k tag 0x0A 0
      else if !self && p.isNone then s.finishRemote x k tag 0x08 0
      else
        let r := s.launchOp x k (s.eng x k).handle o p
        match r.2 with
        | some f => r.1.remoteFault x k f.1 o f.2
        | none =>
          let out : OutOp := { tag, ctx := x, lcore := k, node, op := (rblkOf o.block).op, len := (rblkOf o.block).len, port := p }
          { r.1 with fabric := { r.1.fabric with outOps := r.1.fabric.outOps ++ [out] } }

/-- REMOTE_TIMEOUT (R406): no final answer within the remote time-out; an operation on this Volud never meets it (R399). -/
def execRemoteTimeout (tag : Nat) (s : State) : Host.Outcome State Fault Refusal :=
  match s.fabric.outOps.find? fun o => o.tag == tag && o.port.isSome with
  | none => idle s
  | some o => when s.serving s fun s => s.endOp o 0x09 0

/-- REMOTE_ABANDONED (R408): the remaining messages of an accepted operation have not come in time. -/
def execRemoteAbandoned (srcNode srcCtx tag : Nat) (s : State) : Host.Outcome State Fault Refusal :=
  match s.fabric.inOps.find? fun o => o.srcNode == srcNode && o.srcCtx == srcCtx && o.tag == tag with
  | none => idle s
  | some o => when s.serving s fun s => s.abandonOp o

/-! ## Nodes down and up (R411, R436) -/

/-- Collectives of the Volud that are not complete. -/
def State.allColls (s : State) : List Word :=
  s.cmds.filterMap fun m => match m.work with
    | .coll _ => some m.handle
    | _ => none

/-- A node is down: operations to it end as PEER_DOWN, those from it are abandoned, and collectives react. At most 1 024 nodes are kept
down (R411). -/
def State.peerDown (s : State) (node : Nat) : State :=
  if 1024 ≤ s.fabric.down.length && node ∉ s.fabric.down then
    { s with fabric := { s.fabric with downRefused := s.fabric.downRefused.add 1 } }
  else
    let s : State := { s with fabric := { s.fabric with down := addNew node s.fabric.down } }
    let s := s.allColls.foldl (fun s h => s.collPeerDown h node) s
    let s := (s.fabric.outOps.filter fun o => o.node == node && !s.isSelf node).foldl (fun s o => s.endOp o 0x0A 0) s
    (s.fabric.inOps.filter fun o => o.srcNode == node && o.via != .hub).foldl (fun s o => s.abandonOp o) s

/-- The notice of a kind from a node that waits on a port. -/
def State.noticeOn (s : State) (p kind src node : Nat) : Option Msg :=
  (s.port p).inbox.find? fun m => m.hdr.mtype == 0x21 && m.hdr.srcNode == src && leAt m.data 0 2 == kind && leAt m.data 2 2 == node

/-- A notice: from management, or as a message, which only the fabric manager may send (R411, R412). -/
def noticeRow (kind : Nat) (v : Option Via) (src node : Nat) (s : State) (act : State → State) : Host.Outcome State Fault Refusal :=
  match v with
  | none => when s.serving s act
  | some .hub => idle s
  | some (.port p) =>
    match s.noticeOn p kind src node with
    | none => idle s
    | some m => when (s.serving && p < 8 && (s.port p).st == .up) s fun s =>
        let s := s.take (.port p) m
        if !s.genuine p m.hdr then s.bumpPort p 9 1
        else if !(msgOk m) then s.malformed (.port p) p m
        else if s.net.fmNode != some src then s.linkProtocol p
        else act s

/-- PEER_DOWN (R411, R436). -/
def execPeerDown (v : Option Via) (src node : Nat) (s : State) : Host.Outcome State Fault Refusal :=
  noticeRow 0x81 v src node s fun s => s.peerDown node

/-- PEER_UP (R411). -/
def execPeerUp (v : Option Via) (src node : Nat) (s : State) : Host.Outcome State Fault Refusal :=
  noticeRow 0x82 v src node s fun s => { s with fabric := { s.fabric with down := s.fabric.down.filter (· != node) } }

end Sys2Proof.Machine
end

