-- ==== Sys2Proof/Machine/Ports.lean ====
section
/-! DEFINITION. The optical ports: training, HELLO, authentication, flits, retry and credits, and the ends of a link (R382 to R395, R412,
R484, R519 to R521, R574). -/

namespace Sys2Proof.Machine

/-! ## Ends of a link (R385, R395) -/

/-- Is the optical engine of a port powered, its light source in order, and the port enabled? -/
def State.portLive (s : State) (p : Nat) : Bool :=
  p < 8 && s.board.domains.getLsbD (42 + p / 2) && !s.fabric.laserFault && (s.port p).st != .disabled

/-- A port goes DARK, held for 10 s or not. A link that was up is down: its operations end as UNREACHABLE, those accepted from it are
abandoned, and the retry buffer is discarded (R395). -/
def State.portDark (s : State) (p : Nat) (hold : Bool) : State :=
  let o := s.port p
  let was := o.st == .up || o.st == .recovering
  let s := s.modPort p fun o => { st := if o.st == .disabled then .disabled else .dark, darkHeld := hold || o.darkHeld
                                  rejects := o.rejects, abusers := o.abusers }
  if !was then s
  else
    let s := s.raise { code := 0x0801, unit := 8, index := p }
    let s := (s.fabric.outOps.filter fun q => q.port == some p).foldl (fun s q => s.endOp q 0x08 0) s
    let s := (s.fabric.inOps.filter fun q => q.via == .port p).foldl (fun s q => s.abandonOp q) s
    s.fmReport 2 o.partner 0 [BitVec.ofNat 8 p]

/-- Every port goes DARK. -/
def State.allDark (s : State) : State := (List.range 8).foldl (fun s p => s.portDark p false) s

/-- Authentication or key agreement has failed: DARK for 10 s (R388, R412, R520). -/
def State.authLost (s : State) (p : Nat) : State := (s.raise { code := 0x0805, unit := 8, index := p }).portDark p true

/-! ## Training and HELLO (R385 to R387) -/

/-- LIGHT_DETECTED (R385). -/
def execLightDetected (p : Nat) (s : State) : Host.Outcome State Fault Refusal :=
  when (s.portLive p && (s.port p).st == .dark && !(s.port p).darkHeld) s fun s => s.modPort p fun o => { o with st := .training }

/-- LIGHT_LOST (R385, R412). -/
def execLightLost (p : Nat) (s : State) : Host.Outcome State Fault Refusal :=
  when (s.portLive p && (s.port p).st != .dark) s fun s => s.portDark p false

/-- The delay d in ticks of 10 ns: half of the median of the round trips less the turnarounds, rounded to the nearest tick; the median of 16
is the mean of the middle two (R386; log entry 27). -/
def portDelay (roundTripNs turnaroundNs : List Nat) : Nat :=
  let l := sortBy id ((roundTripNs.zip turnaroundNs).map fun e => e.1 - e.2)
  (l.getD 7 0 + l.getD 8 0 + 20) / 40

/-- TRAINING_DONE (R383, R386): NEGOTIATING, and a HELLO goes out; a recovering port keeps its state and sends its HELLO too (R395). -/
def execTrainingDone (p lanes : Nat) (roundTripNs turnaroundNs : List Nat) (s : State) : Host.Outcome State Fault Refusal :=
  when (s.portLive p && ((s.port p).st == .training || (s.port p).st == .recovering) && (lanes == 1 || lanes == 2 || lanes == 4)) s fun s =>
    let d := portDelay roundTripNs turnaroundNs
    let s := s.modPort p fun o => { o with st := if o.st == .training then .negotiating else o.st, lanes, delay := d }
    let s := if lanes < 4 then s.raise { code := 0x0802, unit := 8, index := p } else s
    s.emit (.hello p)

/-- TRAINING_TIMEOUT (R385): no success for 1 s. -/
def execTrainingTimeout (p : Nat) (s : State) : Host.Outcome State Fault Refusal :=
  when (p < 8 && (s.port p).st == .training) s fun s => s.portDark p false

/-- The link version of two ranges: the highest that both contain (R387). -/
def linkVersion (lo hi : Nat) : Option Nat :=
  let v := min hi Config.linkMax
  if max lo Config.linkMin ≤ v then some v else none

/-- Bring acknowledged flits out of the retry buffer: everything up to `ack` (R394). -/
def Port.acked (o : Port) (ack : Nat) : Port :=
  match o.retry.findIdx? fun e => e.1 == ack with
  | some i => { o with retry := o.retry.drop (i + 1) }
  | none => o

/-- Go-back-N: every flit after ACK that is not acknowledged is sent once more, and counted (R391, R394, R414). -/
def State.resend (s : State) (p ack : Nat) : State :=
  let n := (s.port p).retry.length
  ((s.modPort p fun o => { o with txCount := o.txCount + n }).bumpPort p 0 n).emit (.resend p ((ack + 1) % 2 ^ 24))

/-- Messages may flow: held reports and waiting messages go out. -/
def State.portUp (s : State) (p : Nat) : State := portFlush p ((s.port p).waitQ.length + 1) s.flushReports

/-- HELLO while NEGOTIATING (R387, R399): ports stay there while no node identifier is set. -/
def State.negotiate (s : State) (p : Nat) (h : Hello) : State :=
  match s.net.node with
  | none => s
  | some n =>
    match linkVersion h.lo h.hi with
    | none => (s.raise { code := 0x0803, unit := 8, index := p }).portDark p true
    | some v =>
      if h.node = n || h.node = 0xFFFF then (s.raise { code := 0x0804, unit := 8, index := p }).portDark p true
      else (s.modPort p fun o => { o with
          st := .authenticating, version := v, partner := h.node, partnerDev := h.device, credits := h.credits, credMax := h.credits
          authStep := 0 }).emit (.linkFlit p 4)

/-- HELLO while RECOVERING: the same partner resumes with go-back-N after the flit it names (R395). -/
def State.resumeLink (s : State) (p : Nat) (h : Hello) : State :=
  if h.device != (s.port p).partnerDev || h.node != (s.port p).partner then s.portDark p false
  else
    let s := s.modPort p fun o => { o.acked h.lastSeq with st := .up, nakOut := false, nakRun := 0, nakRx := 0 }
    (s.resend p h.lastSeq).portUp p

/-- HELLO (R387, R395). -/
def execHello (p : Nat) (h : Hello) (s : State) : Host.Outcome State Fault Refusal :=
  when (s.portLive p && ((s.port p).st == .negotiating || (s.port p).st == .recovering)) s fun s =>
    if (s.port p).st == .negotiating then s.negotiate p h else s.resumeLink p h

/-- DARK_HOLD_EXPIRY (R385): 10 s have passed. -/
def execDarkHoldExpiry (p : Nat) (s : State) : Host.Outcome State Fault Refusal :=
  when (p < 8 && (s.port p).darkHeld) s fun s => s.modPort p fun o => { o with darkHeld := false }

/-! ## Authentication (R519 to R521) -/

/-- Does the allow-list let a peer in (R519)? -/
def State.admits (s : State) (dev : BitVec 64) (ext : Digest) : Bool := s.sec.allow.any fun e => e.1 == dev && (e.2 == 0 || e.2 == ext)

/-- The nonce and the secret that this side sends. -/
def ownNonce (p n : Nat) : Bytes := fitTo 32 (Config.entropy (64 + p) n)
/-- See `ownNonce`. -/
def ownSecret (p n : Nat) : Bytes := fitTo 32 (Config.entropy (80 + p) n)

/-- The master secret of R521: the side with the lower device identifier comes first. -/
def masterSecret (own peer : BitVec 64) (mine theirs t : Bytes) : Digest :=
  digestOf (digestBytes (sha512 ((if own.toNat < peer.toNat then mine ++ theirs else theirs ++ mine) ++ t)))

/-- The key and the salt of an epoch for the direction from a device (R521). -/
def linkKey (dev : BitVec 64) (e : Nat) (m : Digest) : Bytes × Bytes :=
  let d := digestBytes (sha512 ("FOLFECOR-LINK".toUTF8.toList.map (fun b => BitVec.ofNat 8 b.toNat) ++ toLe 8 dev.toNat ++ toLe 4 e ++ digestBytes m))
  (d.take 32, (d.drop 32).take 4)

/-- One step of R520. -/
def State.authStepOn (s : State) (p : Nat) (m : AuthMsg) : State :=
  let o := s.port p
  match m with
  | .certs chainOk serial ext nonce =>
    if o.authStep = 0 && chainOk && serial = o.partnerDev && s.admits serial ext then
      (s.modPort p fun o => { o with authStep := 1, peerNonce := nonce }).emit (.linkFlit p 5)
    else s.authLost p
  | .secret decoded =>
    match decoded with
    | some theirs =>
      if o.authStep = 1 then
        let t := Config.transcript p (ownNonce p s.fresh) o.peerNonce
        let k := masterSecret s.factory.device o.partnerDev (ownSecret p s.fresh) theirs t
        ((({ s with fresh := s.fresh + 1 } : State)).modPort p fun o => { o with authStep := 2, master := some k }).emit (.linkFlit p 6)
      else s.authLost p
    | none => s.authLost p
  | .signature ok =>
    if o.authStep = 2 && ok then
      (s.modPort p fun o => { o with
        st := .up, authed := true, txSeq := 0, rxNext := 0, retry := [], epochTx := 0, epochRx := 0, txCount := 0, rxUsed := [0, 0, 0] }).portUp p
    else s.authLost p

/-- LINK_AUTH (R520). -/
def execLinkAuth (p : Nat) (m : AuthMsg) (s : State) : Host.Outcome State Fault Refusal :=
  when (s.portLive p && (s.port p).st == .authenticating) s fun s => s.authStepOn p m

/-! ## Flits (R390 to R394) -/

/-- Units of the buffer of a channel (R393). -/
def channelUnits (vc : Nat) : Nat := if vc = 2 then 256 else 4096

/-- Send a NAK naming the last good SEQ; the same SEQ NAKed 8 times sends the port to RECOVERING (R394). -/
def State.sendNak (s : State) (p : Nat) : State :=
  let o := s.port p
  let run := if o.nakSeq = o.rxNext then o.nakRun + 1 else 1
  let s := ((s.modPort p fun o => { o with nakOut := true, nakSeq := o.rxNext, nakRun := run }).bumpPort p 5 1).emit
    (.nak p ((o.rxNext + 2 ^ 24 - 1) % 2 ^ 24))
  if 8 ≤ run then s.recover p else s

/-- A flit that cannot be taken: a NAK, unless one for the same SEQ is out already (R394; log entry 27). -/
def State.refuseFlit (s : State) (p : Nat) : State := if (s.port p).nakOut then s else s.sendNak p

/-- The partner asks for everything after ACK once more (R394). -/
def State.resendAfter (s : State) (p ack : Nat) : State :=
  let o := s.port p
  let run := if o.nakRxSeq = ack then o.nakRx + 1 else 1
  let s := (s.modPort p fun o => { o.acked ack with nakRx := run, nakRxSeq := ack }).resend p ack
  if 8 ≤ run then s.recover p else s

/-- What every good flit brings: ACK, returned credit, and NAK (R390, R393, R394). -/
def State.takeHeader (s : State) (p : Nat) (f : Flit) : State :=
  let s := s.modPort p fun o => o.acked f.ack
  let s := if f.nak then s.resendAfter p f.ack else s
  if 3 ≤ f.credVc then portFlush p ((s.port p).waitQ.length + 1) s
  else
    let s := s.modPort p fun o => { o with credits := modAt (fun c => c + f.cred) f.credVc o.credits, stalled := o.stalled && f.cred == 0 }
    let o := s.port p
    if o.credMax.getD f.credVc 0 < o.credits.getD f.credVc 0 then s.protocolError p
    else portFlush p ((s.port p).waitQ.length + 1) s

/-- Messages that no row takes: of a reserved type, reports, notices of a reserved kind, and FM messages in transit; the others wait for their
rows (R401, R402, R410 to R412). -/
def State.absorb (s : State) (p : Nat) (m : Msg) : State :=
  let v := Via.port p
  let notice := m.hdr.mtype = 0x21 && (leAt m.data 0 2 = 0x81 || leAt m.data 0 2 = 0x82) && s.isSelf m.hdr.dstNode
  if [1, 2, 3, 4, 5].contains m.hdr.mtype || notice then s
  else if !s.genuine p m.hdr then (s.take v m).bumpPort p 9 1
  else if !msgOk m then (s.take v m).malformed v p m
  else if !s.isSelf m.hdr.dstNode then (s.take v m).transitOn v p m
  else if m.hdr.mtype = 0x20 then s.take v m
  else (s.take v m).malformed v p m

/-- Accept the messages that end in a flit: more than the buffer of a channel holds was sent without credit (R393, R412). -/
def State.acceptMsgs (s : State) (p : Nat) (l : List Msg) : State :=
  let s := s.modPort p fun o => l.foldl (fun o m => { o with inbox := o.inbox ++ [m], rxUsed := modAt (fun c => c + msgUnits m) (msgVc m.hdr) o.rxUsed }) o
  let past := [0, 1, 2].any fun vc => channelUnits vc < (s.port p).rxUsed.getD vc 0
  if past then s.protocolError p else l.foldl (fun s m => s.absorb p m) s

/-- A flit arrives: FEC, then the GCM check, then its header; three failed checks in a second cost the link (R389, R391, R394, R412). -/
def State.takeFlit (s : State) (p : Nat) (f : Flit) (data : Bool) : State :=
  let s := (s.bumpPort p 1 1).bumpPort p 2 f.fecCorrected
  if !f.fecOk then (s.bumpPort p 3 1).refuseFlit p
  else if !f.gcmOk || f.epoch % 2 != (s.port p).epochRx % 2 then
    let l := ((s.port p).gcmFails.filter fun t => s.now < t + ticksSecond) ++ [s.now]
    let s := (s.modPort p fun o => { o with gcmFails := l }).bumpPort p 4 1
    if 3 ≤ l.length then s.authLost p else s.refuseFlit p
  else
    let s := s.takeHeader p f
    if !data || (s.port p).st != .up then s
    else if f.seq != (s.port p).rxNext then s.refuseFlit p
    else (s.modPort p fun o => { o with rxNext := (o.rxNext + 1) % 2 ^ 24, nakOut := false, nakRun := 0 }).acceptMsgs p f.msgs

/-- Do flits flow on a port? -/
def State.flits (s : State) (p : Nat) : Bool := p < 8 && (s.port p).st == .up

/-- DATA_FLIT (R393, R394, R412). -/
def execDataFlit (p : Nat) (f : Flit) (s : State) : Host.Outcome State Fault Refusal := when (s.flits p) s fun s => s.takeFlit p f true

/-- IDLE_FLIT (R390). -/
def execIdleFlit (p : Nat) (f : Flit) (s : State) : Host.Outcome State Fault Refusal := when (s.flits p) s fun s => s.takeFlit p f false

/-- NAK (R394). -/
def execNak (p ack : Nat) (s : State) : Host.Outcome State Fault Refusal := when (s.flits p) s fun s => s.resendAfter p ack

/-- NAK_REPEAT (R394): 4 µs without progress. -/
def execNakRepeat (p : Nat) (s : State) : Host.Outcome State Fault Refusal := when (s.flits p && (s.port p).nakOut) s fun s => s.sendNak p

/-- ACK_STALL (R394): no ACK progress for 1 ms while DATA flits are outstanding. -/
def execAckStall (p : Nat) (s : State) : Host.Outcome State Fault Refusal :=
  when (s.flits p && !(s.port p).retry.isEmpty) s fun s => s.recover p

/-- RECOVERY_EXPIRY (R395): not back UP within 100 ms. -/
def execRecoveryExpiry (p : Nat) (s : State) : Host.Outcome State Fault Refusal :=
  when (p < 8 && (s.port p).st == .recovering) s fun s => s.portDark p false

/-- REKEY_COUNT (R391, R521): after 2^32 flits under one key the sender announces the next epoch. -/
def execRekeyCount (p : Nat) (s : State) : Host.Outcome State Fault Refusal :=
  when (s.flits p) s fun s => (s.modPort p fun o => { o with epochTx := o.epochTx + 1, txCount := 0 }).emit (.linkFlit p 7)

/-- REKEY_ANNOUNCE (R391, R521): the receiver derives the keys of the epoch after the one in force. -/
def execRekeyAnnounce (p epoch : Nat) (s : State) : Host.Outcome State Fault Refusal :=
  when (s.flits p && epoch == (s.port p).epochRx + 1) s fun s => s.modPort p fun o => { o with epochRx := epoch }

/-- CREDIT_STALL (R412, R414): microseconds without credit on a channel while a message waits; LINK_STALL after 10 ms, once per episode. -/
def execCreditStall (p vc us : Nat) (s : State) : Host.Outcome State Fault Refusal :=
  when (s.flits p && (s.port p).waitQ.any fun m => msgVc m.hdr == vc) s fun s =>
    let s := s.bumpPort p 7 us
    if us < 10000 || (s.port p).stalled then s
    else (s.modPort p fun o => { o with stalled := true }).raise { code := 0x0806, unit := 8, index := p, detail := [vc] }

/-! ## Light, bursts and port reset -/

/-- LASER_FAIL (R384): every port goes DARK. -/
def State.laserFail (s : State) : State :=
  let s : State := { s with fabric := { s.fabric with laserFault := true } }
  (s.raise { code := 0x0809, unit := 13, index := 5 }).allDark

/-- LASER_FAIL (R384). -/
def execLaserFail (s : State) : Host.Outcome State Fault Refusal :=
  when (s.board.domains.getLsbD 5 && !s.fabric.laserFault) s State.laserFail

/-- PRESENCE_BURST (R384, R574). -/
def execPresenceBurst (p : Nat) (s : State) : Host.Outcome State Fault Refusal :=
  when (s.portLive p && (s.port p).st == .dark) s fun s => s.emit (.burst p)

/-- PORT_RESET (R484, R504). -/
def execPortReset (p : Nat) (who : Client) (s : State) : Host.Outcome State Fault Refusal :=
  mgmt who roleConfig s fun s => s.accept (s.portLive p) fun s => (s.portDark p false).raise { code := 0x080C, unit := 8, index := p }

/-- Enable or disable a port, in order step 4 (R385, R415). -/
def State.enablePort (s : State) (p : Nat) (on : Bool) : State :=
  let s : State := { s with net := { s.net with enabled :=
    if on then s.net.enabled ||| (1#8 <<< p) else s.net.enabled &&& ~~~(1#8 <<< p) } }
  if on then (if (s.port p).st == .disabled then s.modPort p fun o => { o with st := .dark } else s)
  else (s.portDark p false).modPort p fun o => { o with st := .disabled, darkHeld := false }

end Sys2Proof.Machine
end

