-- ==== Sys2Proof/Machine/Admin.lean ====
section
/-! DEFINITION. The admin ring's set-up (R328, R332, R552), and the flush of ready records. -/

namespace Sys2Proof.Machine

/-- Disable the admin ring: commands not yet released complete as CANCELLED; the ring ends once the records of the others are written
(R328). -/
def State.disableAdmin (s : State) : State :=
  let s := (s.cmds.filter fun m => m.ring == .admin && m.st == .waiting).foldl (fun s m => s.drop m 0x0C) s
  (s.modRing .admin fun r => { r with enabled := false }).adminOver

/-- Write the ready records of a ring while there is room. -/
def flushRing (id : RingId) : Nat → State → State
  | 0, s => s
  | n + 1, s =>
    match s.ring id with
    | none => s
    | some r => match r.ready with
      | [] => s
      | c :: _ => if r.room && !r.stopped then flushRing id n (s.putRecord id r c) else s

/-- The identifier of a ring by its key. -/
def ringOfKey (k : Nat) : RingId := if k = 4096 then .admin else .ctx (k / 16) (k % 16)

/-- Write every ready record that can be written (R490). -/
def State.flushRecords (s : State) : State :=
  if !s.hostWrites then s
  else s.rings.foldl (fun s e => flushRing (ringOfKey e.1) (e.2.ready.length) s) s

end Sys2Proof.Machine
end

