-- ==== Sys2Proof/Machine/Power.lean ====
section
/-! DEFINITION. Power domains, the effective cap, and the brake (R22 to R24, R443, R446 to R450). -/

namespace Sys2Proof.Machine

/-! ## Power domains (R22, R23) -/

/-- The domains that a domain depends on, itself included, in the order of R443: HM 0, HX 1, HC 2, HT 3, HF 4, LS 5, QF 6 to 9, CG 10 to 41,
OE 42 to 45. -/
def dependsOn (d : Nat) : List Nat :=
  if d = 0 then [0]
  else if d ≤ 5 then [d, 0]
  else if d ≤ 9 then [d, 4, 0]
  else if d ≤ 41 then [d, 6 + (d - 10) / 8, 4, 0]
  else [d, 6 + (d - 42), 5, 4, 0]

/-- The domains that lose power with a domain (R23, R25). -/
def dependents (d : Nat) : List Nat := (List.range 46).filter fun e => d ∈ dependsOn e

/-- A set of domains as the bits of `Board.domains`. -/
def domainMask (l : List Nat) : BitVec 46 := BitVec.ofNat 46 (ofBits l)

/-- Domains powered in keeper mode: HM, HX and HT (R28). -/
def keeperDomains : BitVec 46 := domainMask [0, 1, 3]

/-- Domains powered while the recovery loader runs (R554). -/
def recoveryDomains : BitVec 46 := domainMask [0, 1, 3, 4]

/-- Every domain that has no regulator fault, nor depends on one that has. -/
def State.upDomains (s : State) : BitVec 46 :=
  domainMask ((List.range 46).filter fun d => !((dependsOn d).any fun e => e ∈ s.board.faulted))

/-! ## Voltages of core groups, in mV (R442, R445, R454) -/

/-- V_MIN and V_NOM of core group g at operating point k, by the factory power record (R443). -/
def State.lowest (s : State) (g k : Nat) : Int := (Tab.look s.factory.vtable (0, 0) (8 * g + k)).1
/-- See `State.lowest`. -/
def State.nominal (s : State) (g k : Nat) : Int := (Tab.look s.factory.vtable (0, 0) (8 * g + k)).2

/-- The voltage of core group g at operating point k: the nominal one with the user offset, between V_MIN and 900 mV (R442). -/
def State.voltage (s : State) (g k : Nat) : Int := min (max (s.nominal g k + Tab.look s.gov.offsets 0 g) (s.lowest g k)) 900

/-- The voltage of a core group now: that of its quadrant's operating point, and at rest 50 mV below V_MIN of OP7 (R442, R454). -/
def State.coreVolts (s : State) (g : Nat) : Int := if s.gov.rest then s.lowest g 7 - 50 else s.voltage g (s.quad (g / 8)).op

/-- The droop threshold of a core group (R445). -/
def State.droopBelow (s : State) (g : Nat) : Int := s.coreVolts g - 40

/-! ## Caps (R446 to R448) -/

/-- The effective cap E, in W. -/
def State.capE (s : State) : Nat :=
  let e := min s.gov.capMNow s.gov.capHNow
  if s.gov.brakeInE then min e s.gov.capB else e

/-- The number of running parts in PACED (R454). -/
def State.pacedParts (s : State) : Nat :=
  max 1 (min 64 (64 * (s.capE - s.factory.pRest) / (s.factory.pFloor - s.factory.pRest)))

/-- Move a quadrant to an operating point, with what the turn's records report of it (R464). -/
def QuadGov.moveTo (g : QuadGov) (op : Nat) : QuadGov := { g with op, fastest := min g.fastest op, slowest := max g.slowest op }

/-- Move a quadrant, and count the change (R465). -/
def State.moveQuad (s : State) (q op : Nat) : State :=
  let old := (s.quad q).op
  let s := s.modQuad q fun g => g.moveTo op
  if op = old then s else s.bumpQuad q (if old < op then 0 else 1) 1

/-- Move every quadrant. -/
def State.moveAll (s : State) (op : Nat) : State := (List.range 4).foldl (fun s q => s.moveQuad q op) s

/-! ## The power brake (R449, R571) -/

/-- The brake acts at once: OP7 everywhere, and rest where C_B is below the compute floor, until the next boundary. -/
def State.brakeNow (s : State) : State :=
  let s := (s.moveAll 7).raise { code := 0x0B06, unit := 10 }
  let s := s.modGov fun g => { g with forced := true }
  if s.gov.capB < s.factory.pFloor then s.modGov fun g => { g with rest := true } else s

/-- POWER_BRAKE_ASSERT (R449, R571): it acts at once where the cores run, and from READY otherwise. -/
def execPowerBrakeAssert (s : State) : Host.Outcome State Fault Refusal :=
  when (s.mgmtUp && !s.gov.brake) s fun s =>
    let s := s.modGov fun g => { g with brake := true }
    if s.powered && s.htUp then s.brakeNow else s

/-- POWER_BRAKE_DEASSERT (R449): C_B leaves E at the next boundary. -/
def execPowerBrakeDeassert (s : State) : Host.Outcome State Fault Refusal :=
  when s.gov.brake s fun s => s.modGov fun g => { g with brake := false }

end Sys2Proof.Machine
end

