-- ==== Sys2Proof/Machine/Cold.lean ====
section
/-! DEFINITION. Cold resets and cold start, the entry to keeper mode, hung cores, and the loss of a quadrant's memory (R240, R378, R482,
R488 to R491, R548 to R554). -/

namespace Sys2Proof.Machine

/-! ## The loss of power (R488, R544) -/

/-- The module with nothing on it powered: the flash, the fuses and the levels on its pins are all that is left. -/
def State.unpowered (s : State) : State :=
  { now := s.now, pending := s.pending, factory := s.factory, fresh := s.fresh, hostMem := s.hostMem
    fw := { s.fw with xferOpen := false, xfer := [], fieldDirty := false, answers := 0, retests := [], activated := false
                      activation := s.fw.activation.filter fun a => a.copied }
    sec := { akGen := s.sec.akGen }
    gov := { brake := s.gov.brake }
    board := { resetAsserted := s.board.resetAsserted } }

/-- INPUT_REMOVED (R488, R566). -/
def execInputRemoved (s : State) : Host.Outcome State Fault Refusal := whenTurn (s.board.stage != .off) s State.unpowered

/-- A cold reset without loss of the input: the boot ROM starts again. -/
def State.coldReset (s : State) : State :=
  let s := s.unpowered
  { s with board := { s.board with stage := .rom, domains := domainMask [0] } }

/-- MGMT_COLD_RESET (R479, R488). -/
def execMgmtColdReset (who : Client) (s : State) : Host.Outcome State Fault Refusal :=
  mgmtTurn who roleConfig s fun s => s.coldReset.emit (.http 204 [])

/-- DIE_TRIP (R456): every domain but HM loses its power; memory contents are undefined, and only a cold reset recovers (R489). -/
def execDieTrip (s : State) : Host.Outcome State Fault Refusal :=
  whenTurn (s.mgmtUp && s.board.stage != .tripped) s fun s =>
    let s := s.raise { code := 0x0B0B, unit := 10 }
    let t := s.unpowered
    { t with sec := s.sec, board := { t.board with stage := .tripped, domains := domainMask [0] } }

/-! ## Values from the field area (R559, R581) -/

/-- Parameters as a reset takes them: a pending CXL.mem size is in force (R319), and with a cold reset a pending global boundary (R262). -/
def Params.afterReset (p : Params) (cold : Bool) : Params :=
  { p with
    cxlMem := p.cxlMemPending.getD p.cxlMem
    cxlMemPending := none
    g := if cold then p.gPending.getD p.g else p.g
    gPending := if cold then none else p.gPending }

/-- Management parameters take the values of the field area. -/
def State.fieldParams (s : State) (cold : Bool) : State :=
  let a := s.fw.field
  let p := a.params.afterReset cold
  { s with
    params := p, net := a.net
    gov := { s.gov with levelMode := a.levelMode, capM := a.capM, capMNow := a.capM, capB := a.capB, offsets := a.offsets }
    fw := { s.fw with field := { a with params := p } } }

/-- What else a cold start takes from it: the turn unit's parameters, ownership, field lists and retired ranges. -/
def State.fieldState (s : State) : State :=
  let a := s.fw.field
  { s with
    turn := { params := { a.turn with source := none } }
    sec := { s.sec with owned := a.owned, anchors := a.anchors, idents := a.idents, allow := a.allow }
    units := { s.units with fieldCols := a.cols, fieldLanes := a.lanes, withdrawn := a.withdrawn }
    mem := { s.mem with retired := a.retired } }

/-! ## Cold start (R548, R549, R554) -/

/-- FW_VERIFY_FAIL. -/
def State.verifyFail (s : State) (detail : Nat) : State := s.raiseDev 0x0C0A 12 0 [detail]

/-- The recovery loader runs (R554). -/
def State.recoveryLoader (s : State) (detail : Nat) : State :=
  let s := s.verifyFail detail
  { s with board := { s.board with stage := .recovery, domains := recoveryDomains } }

/-- MEM_CHANNEL_FAIL of one channel (R240). -/
def State.channelFail (s : State) (ch : Nat) : State := s.raise { code := 0x0403, unit := 7, index := ch / 8, detail := [ch] }

/-- Enabled ports leave DISABLED for DARK, others are DISABLED (R385). -/
def State.startPorts (s : State) : State :=
  (List.range 8).foldl (fun s p => s.modPort p fun _ => { st := if s.net.enabled.getLsbD p then .dark else .disabled }) s

/-- Steps 3 to 9 of R548, with the responses of R549: the turn unit in UNSET with the source that the field area names selected in it, quadrants at
OP7, memory trained and zero, units tested, AK and UK created (R496). -/
def State.bringUp (s : State) (hot : Bool) (failed : List Nat) (cols lanes : List (Nat × Nat)) (laser : Bool) : State :=
  let source := s.fw.field.turn.source
  let s := s.fieldState
  let s := match source with
    | some v => s.selectSource s.turn.params.period v
    | none => s
  let t := s
  let good : List Nat := (List.range 4).filter fun q => !failed.any fun ch => ch / 96 = q
  let s : State := { s with
    mem := { s.mem with avail := BitVec.ofNat 4 (ofBits good) }
    sec := { s.sec with akExists := true, akGen := s.sec.akGen + 1 }
    fw := { s.fw with running := s.fw.image, activated := s.fw.activation.isSome, activation := none }
    board := { s.board with stage := .cores, domains := s.upDomains } }
  let s := if hot then s.raise { code := 0x0B09, unit := 10 } else s
  let s := failed.eraseDups.foldl State.channelFail s
  let s := (s.unitTests cols lanes).startPorts
  (if laser then s.laserFail else s).sameTurn t

/-- COLD_START (R548 to R554): the operands are the outcomes of the checks and tests of start-up. -/
def execColdStart (imageOk fieldOk hot : Bool) (failed : List Nat) (cols lanes : List (Nat × Nat)) (laser : Bool) (s : State) :
    Host.Outcome State Fault Refusal :=
  whenTurn (s.board.stage == .off || s.board.stage == .rom) s fun s =>
    let s := s.unpowered
    let s : State := if fieldOk then s else { s with fw := { s.fw with field := {} } }
    let s := s.fieldParams true
    let ok := imageOk && s.fw.image.major == 1 && s.fw.svnFloor ≤ s.fw.image.svn
    let s : State := { s with fw := { s.fw with image := { s.fw.image with ok := ok } } }
    if !s.factory.ok then s.recoveryLoader 1
    else
      let s := if fieldOk then s else s.verifyFail 2
      if !ok then s.fieldState.recoveryLoader 3
      else s.bringUp hot (failed.filter (· < 384)) cols lanes laser

/-! ## A core that does not stop (R482) -/

/-- A core that hangs is reset, and its command completes as POISONED; three hangs within 24 hours withdraw it. -/
def State.coreHang (s : State) (c : Nat) : State :=
  let log := (s.units.hangs.filter fun e => s.now < e.2 + 24 * ticksHour) ++ [(c, s.now)]
  let out := 3 ≤ (log.filter fun e => e.1 = c).length
  let k := s.core c
  let s := match k.owner with
    | none => s.raise { code := 0x0307, core := some c, unit := 1 }
    | some (x, i) =>
      let s := s.raise { code := 0x0307, ctx := some x, handle := some k.handle, core := some c, unit := 1 }
      let torn := (k.gather.filter fun (e : GEntry) => !e.dirty.isEmpty).map fun (e : GEntry) => e.row
      let s := s.modLcore x i fun l => { l with saved := none, poison := torn.foldl (fun l r => addNew r l) l.poison }
      let s := s.modCore c fun k => { owner := k.owner, handle := k.handle }
      if ((s.ctx x).kernel k.handle).isSome then s.failKernel x k.handle 0x06 0x09 else s
  { s with
    units := { s.units with
      hangs := log
      testDue := (List.range 8).foldl (fun l a => addNew (8 * c + a) l) s.units.testDue
      withdrawn := if out then addNew c s.units.withdrawn else s.units.withdrawn }
    fw := { s.fw with fieldDirty := s.fw.fieldDirty || out } }

/-- CORE_HANG (R482). -/
def execCoreHang (c : Nat) (s : State) : Host.Outcome State Fault Refusal :=
  when (s.serving && c < 128 && (s.core c).owner.isSome) s fun s => s.coreHang c

/-! ## The loss of a quadrant's memory (R240, R281, R378) -/

/-- Does a page have a codeword in a quadrant, by its address or by its channel (R246, R247)? -/
def State.pageIn (s : State) (q page : Nat) : Bool :=
  let dpa := page * Config.page
  dpa < tierBase && (dpaQuad dpa == q || s.gBytes < dpaOff dpa + Config.page)

/-- A body whose pages lay there is INCOMPLETE, and the shards that it held are marked 0x03 (R281). -/
def GenBody.lose (b : GenBody) (lost : Nat → Bool) : GenBody :=
  let idx := (b.pages.filter fun e => lost e.2).map fun e => e.1
  if idx.isEmpty then b
  else
    let hit : Nat × Nat × Nat → Bool := fun t => idx.any fun i => t.2.1 < (i + 1) * Config.page && i * Config.page < t.2.1 + t.2.2
    let bad := ((b.spans.filter hit).map fun t => t.1).eraseDups
    { b with
      st := if b.st == .loading then .loading else .incomplete
      shards := bad.foldl (fun t i => if b.st == .loading && Tab.look b.shards 0 i = 0 then t else Tab.put t 0 i 4) b.shards }

/-- A context whose home quadrant is lost (R378): BROKEN, its commands POISONED, its ledger gone. One that is still being opened is not
opened; one whose scrub runs goes on with it. -/
def State.breakCtx (s : State) (x : Nat) : State :=
  let cx := s.ctx x
  if cx.st == .scrubbing then s.modCtx x fun cx => { cx with ledger := {} }
  else match cx.opening, cx.adopt with
    | some (h, _), false => (s.unreserve x).failCmd h 0x06 0x06
    | o, _ =>
      let s := (s.raiseCtx x 0x0702 []).modCtx x fun cx => { cx with st := .broken, ledger := {}, opening := none, adopt := false, newly := false }
      let s := (s.cancelAll x 0x06 0x06).discardKernels x
      match o with
      | some (h, _) => s.failCmd h 0x06 0x06
      | none => s

/-- Another context: its folios that lay there are POISONED, and SEQ_STATE_LOST names each sequence (R378). -/
def State.loseFolios (s : State) (x : Nat) (lost : Nat → Bool) : State :=
  let cx := s.ctx x
  let gone : Folio → Bool := fun f => !f.spilled && (cx.walk f.base).any fun r => !r.1.tier && lost ((r.1.addr * 4096 + f.base % r.2) / Config.page)
  let hit := cx.seqs.filter fun q => q.2.cat.any fun e => gone e.2
  let mark : Nat × Folio → Nat × Folio := fun e => if gone e.2 then (e.1, { e.2 with poisoned := true }) else e
  let s := s.modCtx x fun cx => { cx with seqs := cx.seqs.map fun q => (q.1, { q.2 with cat := q.2.cat.map mark }) }
  hit.foldl (fun s q => s.raiseCtx x 0x0703 [q.1]) s

/-- A quadrant's memory is lost (R240): nothing there is valid, and what lay there is lost. -/
def State.loseQuadrant (s : State) (q : Nat) : State :=
  let lost : Nat → Bool := s.pageIn q
  let keep : Nat → Bool := fun dpa => !lost (dpa / Config.page)
  let s : State := { s with mem := { s.mem with
    avail := s.mem.avail &&& ~~~(1#4 <<< q)
    data := s.mem.data.filter fun e => keep e.1
    tags := s.mem.tags.filter fun e => keep (128 * e.1) } }
  let all := s.ctxs
  let s := all.foldl (fun s e =>
    if e.2.st == .closed then s
    else
      let s := s.modCtx e.1 fun cx => { cx with gens := cx.gens.map fun g => (g.1, { g.2 with body := g.2.body.lose lost }) }
      if e.2.home = q then (if e.2.st == .broken then s else s.breakCtx e.1) else s.loseFolios e.1 lost) s
  { s with colls := s.colls.map fun k => (k.1, { k.2 with body := k.2.body.lose lost }) }

/-- Channels that failed training: each raises its event, and the memory of their quadrants is lost if it was available (R240). -/
def State.failChannels (s : State) (failed : List Nat) : State :=
  let l := (failed.filter (· < 384)).eraseDups
  let s := l.foldl State.channelFail s
  (((l.map fun ch => ch / 96).eraseDups).filter fun q => s.mem.avail.getLsbD q).foldl State.loseQuadrant s

/-! ## Entry to keeper mode (R489, R490) -/

/-- The number of a keeper cause in DETAIL: its row in the table of R489, from 0. -/
def causeNo : KeeperCause → Nat
  | .cap => 0
  | .inputRange => 1
  | .memCritical => 2
  | .dieCritical => 3
  | .regFaultHf => 4
  | .watchdog => 5
  | .request => 6

/-- Entry to keeper mode from service (R490): kernels are taken off, ready records written, memory put in self-refresh, ports DARK, and power
removed from every domain but HM, HX and HT, of which one that has lost its power stays without (R24, R28); a turn unit that follows link marks is in HOLDOVER (R52). -/
def State.keeperDown (s : State) (hung : List Nat) : State :=
  let s := hung.foldl (fun s c => if (s.core c).owner.isSome then s.coreHang c else s) s
  let s := s.ctxs.foldl (fun s e => if e.2.st == .running then s.takeOff e.1 else s) s
  let s := s.flushRecords.allDark
  let s := if s.turn.params.source == some .marks && s.turn.st == .locked then s.enterHoldover else s
  { s with
    mem := { s.mem with selfRefresh := 0xF }
    gov := { s.gov with st := .keeper, rest := false, forced := false }
    board := { s.board with stage := .keeper, domains := s.board.domains &&& keeperDomains, mgmtExit := false, hbSeen := false, hbAge := [], hbLate := [] } }

/-- A keeper cause has arisen: in service the Volud enters keeper mode; otherwise the cause is kept. A module that does not serve for another
reason enters it once it is ready (R491). -/
def State.enterKeeper (s : State) (cause : KeeperCause) (hung : List Nat) : State :=
  let s : State := { s with board := { s.board with
    keeper := addNew cause s.board.keeper
    dieCriticals := if cause == .dieCritical then (s.board.dieCriticals.filter fun t => s.now < t + 24 * ticksHour) ++ [s.now]
      else s.board.dieCriticals } }
  if s.powered then (s.raise { code := 0x0C03, unit := 12, detail := [causeNo cause] }).keeperDown hung else s

/-- A keeper cause has cleared. -/
def State.clearCause (s : State) (cause : KeeperCause) : State :=
  { s with board := { s.board with keeper := s.board.keeper.filter (· != cause) } }

/-- KEEPER_ENTRY (R489, R490). -/
def execKeeperEntry (cause : KeeperCause) (hung : List Nat) (s : State) : Host.Outcome State Fault Refusal :=
  whenHold s.powered s fun s => s.enterKeeper cause hung

/-- MGMT_KEEPER_REQUEST (R489): entry, or the end of management's own cause, and of a cause that waits for management. -/
def execMgmtKeeperRequest (who : Client) (enter : Bool) (s : State) : Host.Outcome State Fault Refusal :=
  mgmtHold who roleConfig s fun s =>
    if enter then s.accept s.powered fun s => s.enterKeeper .request []
    else s.accept (s.board.stage == .keeper) fun s =>
      let s := s.clearCause .request
      { s with board := { s.board with mgmtExit := true } }

/-- INPUT_OUT_OF_RANGE (R455). -/
def execInputOutOfRange (high : Bool) (s : State) : Host.Outcome State Fault Refusal :=
  whenHold (s.mgmtUp && !s.board.inputBad) s fun s =>
    let s : State := { s with board := { s.board with inputBad := true } }
    (s.raise { code := if high then 0x0B08 else 0x0B07, unit := 10 }).enterKeeper .inputRange []

/-- INPUT_RECOVERED (R455). -/
def execInputRecovered (s : State) : Host.Outcome State Fault Refusal :=
  when (s.mgmtUp && s.board.inputBad) s fun s => { s.clearCause .inputRange with board := { (s.clearCause .inputRange).board with inputBad := false } }

end Sys2Proof.Machine
end

