-- ==== Sys2Proof/Machine/Resets.lean ====
section
/-! DEFINITION. Warm device resets, readiness, and the smaller resets: quadrant, function, regulator faults (R25, R324, R479 to R487, R548 to
R553, R571). -/

namespace Sys2Proof.Machine

/-! ## Warm device reset (R486, R550) -/

/-- A body over a warm reset: what was loading is INCOMPLETE, and what is held is VERIFYING, its good shards still to be checked (R281); the
bad shards of a collection that was HELD are still to be repaired (R299). -/
def GenBody.warm (b : GenBody) (coll : Bool) : GenBody :=
  match b.manifest with
  | none => { b with st := .incomplete }
  | some _ => ({ b with
      st := .verifying
      badShards := if coll && b.st == .held then b.lacking else []
      prefetch := b.prefetch.filter fun e => e.2
      shards := (List.range b.count).foldl (fun t i =>
        if b.good i then Tab.put t 0 i 0 else if Tab.look b.shards 0 i = 0 then Tab.put t 0 i 4 else t) b.shards } : GenBody).verified coll

/-- A context over a warm reset (R486, R487): shelves that were resident, engines and saved kernels are lost; an open one is recoverable, a
closing one finishes its close after readiness. -/
def Ctx.warm (cx : Ctx) (closing : Bool) : Ctx :=
  let keep : LCore → LCore := fun l => { l with saved := none }
  let base : Ctx := { cx with
    lcores := cx.lcores.foldl (fun t e => if e.2.home.isSome then t else Tab.put t {} e.1 (keep e.2)) []
    gens := cx.gens.map fun g => (g.1, if g.2.ref.isSome then g.2 else { g.2 with body := g.2.body.warm false })
    placed := [], windows := [], tombs := [], opening := none, adopt := false, resetting := none }
  if cx.st == .scrubbing then { base with orphan := true }
  else if cx.st == .broken then { base with closeCmd := none }
  else if closing then { base with st := .closing, orphan := true }
  else { base with st := .recoverable, closeCmd := none, newly := cx.st != .recoverable && !cx.adopt, kernels := cx.kernels.filter fun r => r.isStep }

/-- The image region is read and verified again: a new image runs, with new keys (R496, R500, R550, R556). -/
def State.rereadImage (s : State) : State :=
  let hold := s.fw.activation.any fun a => a.turn.isNone
  if hold || s.fw.image.digest = s.fw.running.digest then s
  else { s with
    sec := { s.sec with akGen := s.sec.akGen + 1, wkeys := [] }
    fw := { s.fw with running := s.fw.image, activated := s.fw.activation.isSome, activation := none } }

/-- The start of a warm reset (R486): every domain but HM and HT loses its power; RW registers, rings, windows, collectives and commands are
gone. One that management orders ends the keeper causes that wait for it (R489). -/
def State.beginWarm (s : State) (cause : Nat) : State :=
  let s := (s.ctxs.filter fun e => e.2.st == .opening && !e.2.adopt).foldl (fun s e => s.unreserve e.1) s
  let s := s.freePages (s.mem.pagesOf fun u => match u with
    | .countTable _ => true
    | _ => false)
  let ctxs := s.ctxs.map fun e => (e.1, e.2.warm (s.closeReleased e.2))
  let s : State := { s with
    ctxs
    cores := [], rings := [], cmds := []
    colls := s.colls.map fun k => (k.1, { k.2 with body := k.2.body.warm true, load := none, readyNext := false })
    mem := { s.mem with selfRefresh := 0xF }
    fabric := { ports := [], nextTag := s.fabric.nextTag, reports := s.fabric.reports, down := s.fabric.down, downRefused := s.fabric.downRefused }
    host := { spdmNet := s.host.spdmNet }
    sec := { s.sec with ideKeys := [] }
    regs := {}
    ev := { s.ev with queues := s.ev.queues.map fun q => (q.1, { held := q.2.held, dropped := q.2.dropped, lostNext := q.2.lostNext }) }
    units := { s.units with testDue := [], activity := [], lastGrant := [], interval := [], narrowing := [] }
    gov := { s.gov with capH := 1900, capHNow := 1900, rest := false, forced := false, brakeInE := false, quads := [], idleTurns := [] }
    fw := { s.fw with xferOpen := false, xfer := [] }
    board := { s.board with
      stage := .cores, domains := domainMask [0, 3], faulted := [], warm := some cause, warmCause := cause
      hbSeen := false, hbAge := [], hbLate := [], linkDownCount := false
      keeper := if cause = 4 then s.board.keeper.filter fun c => c != .regFaultHf && c != .watchdog else s.board.keeper } }
  -- where the field area is still to be written the parameters in force stay, with the window size that was pending (R319; log entry 91)
  let s := if s.fw.fieldDirty then { s with params := s.params.afterReset false } else s.fieldParams false
  let s := s.rereadImage
  if s.fw.image.ok then s.startPorts else s.recoveryLoader 3

/-- May a warm reset start: in service, or in keeper mode (R479, R491)? -/
def State.mayWarm (s : State) : Bool := s.board.stage == .ready || s.board.stage == .keeper

/-- Start a warm reset; one that is asked for while another reset is in progress is ignored (R479). -/
def State.warmReset (s : State) (cause : Nat) : State := if s.mayWarm then s.beginWarm cause else s

/-- BOARD_RESET_ASSERT (R324, R550): during a start-up it only holds HX in reset. -/
def execBoardResetAssert (s : State) : Host.Outcome State Fault Refusal :=
  when (s.board.stage != .off && !s.board.resetAsserted) s fun s =>
    ({ s with board := { s.board with resetAsserted := true }, host := { s.host with link := .down } } : State).warmReset 0

/-- BOARD_RESET_DEASSERT (R548, R550): the link may train. -/
def execBoardResetDeassert (s : State) : Host.Outcome State Fault Refusal :=
  when s.board.resetAsserted s fun s => { s with board := { s.board with resetAsserted := false } }

/-- Is the host link up in some configuration? -/
def State.linkUp (s : State) : Bool := s.host.link == .full || s.host.link == .ioOnly

/-- HOT_RESET (R324). -/
def execHotReset (s : State) : Host.Outcome State Fault Refusal := when (s.linkUp && s.mayWarm) s fun s => s.warmReset 1

/-- MGMT_WARM_RESET (R486). -/
def execMgmtWarmReset (who : Client) (s : State) : Host.Outcome State Fault Refusal :=
  mgmt who roleConfig s fun s => s.accept s.mayWarm fun s => s.warmReset 4

/-- HUB_FATAL (R486), of the hub or, with `entropy`, of the entropy source (R498). -/
def execHubFatal (entropy : Bool) (s : State) : Host.Outcome State Fault Refusal :=
  when (s.mayWarm || s.board.stage == .cores) s fun s => (s.raise { code := 0x0C08, unit := if entropy then 0 else 12 }).warmReset 5

/-! ## The host link going down and coming back (R324) -/

/-- HOST_LINK_DOWN: every doorbell line that the Volud holds is dropped, completion writes are held, and 100 ms are counted; no state is lost. -/
def execHostLinkDown (s : State) : Host.Outcome State Fault Refusal :=
  when (s.linkUp && s.mgmtUp) s fun s =>
    let drop : Ring → Ring := fun r => { r with lineHeld := false }
    { s with
      host := { s.host with link := .down, holdCpl := true }
      rings := s.rings.map fun e => (e.1, drop e.2)
      board := { s.board with linkDownCount := true } }

/-- HOST_LINK_DOWN_EXPIRY. -/
def execHostLinkDownExpiry (s : State) : Host.Outcome State Fault Refusal :=
  when (s.board.linkDownCount && !s.linkUp) s fun s =>
    ({ s with board := { s.board with linkDownCount := false } } : State).warmReset 2

/-- Every coherent doorbell is read afresh: the value that the operand gives, or the one last read (R324). -/
def State.rereadDoorbells (s : State) (words : List (RingId × Word)) : State :=
  s.rings.foldl (fun s e =>
    let id := ringOfKey e.1
    s.rereadDoorbell id (((words.find? fun w => w.1 == id).map fun w => w.2).getD e.2.seen)) s

/-- HOST_LINK_RETRAIN: full service within 100 ms; the operands are the doorbell words that the Volud then reads. -/
def execHostLinkRetrain (words : List (RingId × Word)) (s : State) : Host.Outcome State Fault Refusal :=
  when (s.board.linkDownCount && !s.linkUp && !s.board.resetAsserted && !s.board.faulted.contains 1) s fun s =>
    ({ s with
      host := { s.host with link := .full, holdCpl := false }
      board := { s.board with linkDownCount := false } } : State).rereadDoorbells words

/-! ## Readiness (R547, R552, R553, R556, R571) -/

/-- Contexts that a warm reset, or an FLR in keeper mode, has left to be closed are closed (R487, R491). -/
def State.closeLeft (s : State) : State :=
  s.ctxs.foldl (fun s e =>
    if e.2.st == .broken then s.closeCtx e.1 3 none
    else if e.2.marked then (if e.2.st == .scrubbing then s else (s.cancelAll e.1 0x0C 0).closeCtx e.1 2 none)
    else if e.2.st == .closing then s.closeCtx e.1 0 e.2.closeCmd
    else s) s

/-- The end of a warm reset: its record, and one for each context that it made recoverable (R486, R487). -/
def State.endWarm (s : State) (cause : Nat) (found : Tested) : State :=
  let s := (s.unitTests found.columns found.lanes).raise { code := 0x0C05, unit := 12, detail := [cause] }
  let s := s.ctxs.foldl (fun s e => if e.2.newly then (s.raiseCtx e.1 0x0705 []).modCtx e.1 fun cx => { cx with newly := false } else s) s
  (s.closeLeft).failChannels found.channels

/-- A brake that is asserted at READY acts at once (R571). -/
def State.brakeAtReady (s : State) : State := if s.gov.brake then s.brakeNow else s

/-- The image that runs has reached READY: the fuses are blown up to its security version, and an activation is over (R547, R556). -/
def State.imageReady (s : State) : State :=
  let s : State := { s with fw := { s.fw with svnFloor := max s.fw.svnFloor s.fw.running.svn } }
  if s.fw.activated then (({ s with fw := { s.fw with activated := false } } : State).raise { code := 0x0C0C, unit := 12 }) else s

/-- READY (R547, R553): the firmware serves. The operand names the channels that failed training after a warm reset (R240), and the columns and
lanes that failed their tests (R92, R186). -/
def execReady (found : Tested) (s : State) : Host.Outcome State Fault Refusal :=
  whenHold (s.board.stage == .cores && s.sec.akExists && s.mem.avail != 0 && s.fw.image.ok) s fun s =>
    let warm := s.board.warm
    let s : State := { s with
      mem := { s.mem with selfRefresh := 0 }
      gov := { s.gov with st := .governed }
      board := { s.board with stage := .ready, domains := s.upDomains, warm := none } }
    let s := match warm with
      | some cause => s.endWarm cause found
      | none => s
    let s := s.imageReady.takeAdmin.brakeAtReady
    match s.board.keeper with
    | [] => s
    | c :: _ => (s.raise { code := 0x0C03, unit := 12, detail := [causeNo c] }).keeperDown []

/-! ## Quadrant reset (R483) -/

/-- The shelves that were resident in a quadrant come back poisoned in every row, their slots EMPTY with F = 1 and D = 1. -/
def State.loseShelves (s : State) (inQ : Nat → Bool) (home : Option Nat → Option Nat) : State :=
  let hit : Nat → LCore → LCore := fun n l =>
    if l.home.any inQ then { l with home := home l.home, shelves := if (home l.home).isSome then l.shelves else []
                                    rows := [], slots := [], owed := [], bad := [], soft := [], poison := List.range (128 * n) }
    else l
  { s with ctxs := s.ctxs.map fun e => (e.1, { e.2 with lcores := e.2.lcores.map fun l => (l.1, hit e.2.req.shelves l.2) }) }

/-- The reset of quadrant q: its arrays begin at level 0, and every domain of it that can be powered is powered again at once. -/
def State.quadrantReset (s : State) (q : Nat) (hung failed : List Nat) : State :=
  let s := hung.foldl (fun s c => if c / 32 = q && (s.core c).owner.isSome then s.coreHang c else s) s
  let s := s.ctxs.foldl (fun s e => if e.2.st == .running && e.2.placed.any fun c => c / 32 = q then s.takeOff e.1 else s) s
  let s := (s.loseShelves (fun c => c / 32 = q) id).raise { code := 0x0C09, unit := 12, detail := [q] }
  let s := (s.portDark (2 * q) false).portDark (2 * q + 1) false
  let back := s.upDomains &&& domainMask (dependents (6 + q))
  let s : State := { s with
    units := { s.units with activity := Tab.clear s.units.activity (256 * q) 256 }
    board := { s.board with domains := s.board.domains ||| back } }
  s.failChannels (failed.filter fun ch => ch / 96 = q)

/-- Can a quadrant be reset: in service, its domain powered? -/
def State.mayResetQuad (s : State) (q : Nat) : Bool := s.serving && q < 4 && s.board.domains.getLsbD (6 + q)

/-- QUADRANT_RESET (R483): by QF_FATAL, or by management. -/
def execQuadrantReset (q : Nat) (who : Option Client) (hung failed : List Nat) (s : State) : Host.Outcome State Fault Refusal :=
  match who with
  | none => when (s.mayResetQuad q) s fun s => (s.raise { code := 0x0407, unit := 7, detail := [q] }).quadrantReset q hung failed
  | some w => mgmt w roleConfig s fun s => s.accept (s.mayResetQuad q) fun s => s.quadrantReset q hung failed

/-! ## Regulator faults (R25) -/

/-- The contexts resident on a core that has lost its power each receive a record: CORE is the core, INDEX the domain of its core group, DETAIL
the domain that faulted, and HANDLE the command that ran there (R25, R467; log entry 90); a kernel there ends as POISONED. -/
def State.corePowerLost (s : State) (d c : Nat) : State :=
  let run := s.ownerOf c
  let xs := ((run.toList.map fun o => o.1) ++ (s.residents c).map fun e => e.1).eraseDups
  let at_ : Nat → Option Word := fun x => if run.any fun o => o.1 == x then some (s.core c).handle else none
  let s := xs.foldl (fun s x =>
    s.raise { code := 0x0B01, ctx := some x, handle := at_ x, core := some c, unit := 13, index := 10 + c / 4, detail := [d] }) s
  match run with
  | none => s
  | some (x, i) =>
    let h := (s.core c).handle
    let s := (s.modCore c fun k => { owner := k.owner, handle := k.handle }).modLcore x i fun l => { l with saved := none }
    if ((s.ctx x).kernel h).isSome then s.failKernel x h 0x06 0x09 else s

/-- Quadrants of a list of domains whose memory controllers are among them. -/
def quadsOf (l : List Nat) : BitVec 4 := BitVec.ofNat 4 (ofBits ((List.range 4).filter fun q => 6 + q ∈ l))

/-- What the loss of some domains does beyond the cores (R22, R25, R27): the packages of a quadrant whose QF goes are in self-refresh. -/
def State.domainsLost (s : State) (l : List Nat) : State :=
  let s : State := { s with mem := { s.mem with selfRefresh := s.mem.selfRefresh ||| quadsOf l } }
  let s := if 1 ∈ l then ({ s with host := { s.host with link := .down, holdCpl := true, snoop := [] }
                                   board := { s.board with linkDownCount := true } } : State) else s
  let s := if 3 ∈ l then ({ s with ev := { s.ev with log := [] } } : State) else s
  let s := if 5 ∈ l then ({ s with fabric := { s.fabric with laserFault := true } } : State) else s
  ((List.range 8).filter fun p => 42 + p / 2 ∈ l).foldl (fun s p => s.portDark p false) s

/-- The turn unit without power: UNSET, its count gone; management's parameters stay. -/
def TurnUnit.dark (u : TurnUnit) : TurnUnit := { params := { u.params with source := none } }

/-- REG_FAULT (R25): power leaves the domain and all that depend on it; on HF the Volud is in keeper mode, and on HM nothing is left. -/
def execRegFault (d : Nat) (s : State) : Host.Outcome State Fault Refusal :=
  whenTurn (d < 46 && s.board.domains.getLsbD d && s.board.stage != .off) s fun s =>
    if d = 0 then s.unpowered
    else
      let lost := (dependents d).filter fun e => s.board.domains.getLsbD e
      let cores := (List.range 128).filter fun c => 10 + c / 4 ∈ lost
      let t : State := if 3 ∈ lost then { s with turn := s.turn.dark } else s
      let s := t.raise { code := 0x0B01, unit := 13, index := d }
      let s := cores.foldl (fun s c => s.corePowerLost d c) s
      let s := s.loseShelves (fun c => cores.contains c) (fun _ => none)
      let s := s.domainsLost lost
      let s : State := { s with board := { s.board with faulted := addNew d s.board.faulted, domains := s.board.domains &&& ~~~domainMask lost } }
      (if d = 4 then s.enterKeeper .regFaultHf [] else s).onlyHold t

/-! ## Function-level reset (R485, R491) -/

/-- An FLR closes a context of the function; no record of its commands is written. -/
def State.flrCtx (s : State) (x : Nat) : State :=
  let cx := s.ctx x
  match cx.opening, cx.adopt with
  | some (h, _), false => (s.unreserve x).failCmd h 0x0C 0
  | o, _ =>
    let s := (s.cancelAll x 0x0C 0).closeCtx x 2 none
    match o with
    | some (h, _) => s.failCmd h 0x0C 0
    | none => s

/-- The admin ring goes with an FLR of F0: its commands end without records, and what they had begun is left as it is, but for contexts not
yet opened. -/
def State.flrAdmin (s : State) : State :=
  let gone := (s.cmds.filter fun m => m.ring == .admin).map fun m => m.handle
  let s := (s.ctxs.filter fun e => !e.2.adopt && e.2.opening.any fun o => o.1 ∈ gone).foldl (fun s e => s.unreserve e.1) s
  let undo : Ctx → Ctx := fun cx =>
    let cx := if cx.adopt && cx.opening.any (fun o => o.1 ∈ gone) then { cx with st := .recoverable, adopt := false, opening := none } else cx
    if cx.closeCmd.any fun h => h ∈ gone then
      (if cx.st == .scrubbing then { cx with orphan := true }
       else { cx with closeCmd := none })
    else cx
  { s with
    cmds := s.cmds.filter fun m => m.ring != .admin
    rings := Tab.del s.rings (ringKey .admin)
    ctxs := s.ctxs.map fun e => (e.1, undo e.2)
    regs := { s.regs with adminHdr := 0, adminEnable := false, adminHeld := none } }

/-- Does a context belong to a function, and is it not yet closed? -/
def flrHits (f : Nat) (cx : Ctx) : Bool := cx.req.func == f && cx.st != .closed && cx.st != .scrubbing

/-- FLR (R485): in keeper mode, and before readiness, the function's contexts are marked and closed afterwards (R491). -/
def execFlr (f : Nat) (s : State) : Host.Outcome State Fault Refusal :=
  when (s.linkUp && f ≤ s.host.vfs && s.board.stage != .recovery) s fun s =>
    let xs := (s.ctxs.filter fun e => flrHits f e.2).map fun e => e.1
    let s := if s.serving then xs.foldl State.flrCtx s
      else xs.foldl (fun s x => s.modCtx x fun cx => { cx with marked := true }) s
    let s := if f = 0 then s.flrAdmin else s
    let s : State := { s with
      host := { s.host with
        unmasked := s.host.unmasked.filter fun k => k / 2048 != f
        pendingMsix := s.host.pendingMsix.filter fun k => k / 2048 != f
        msixOn := s.host.msixOn.filter (· != f)
        msixMask := s.host.msixMask.filter (· != f)
        msixTable := Tab.clear s.host.msixTable (32768 * f) 32768
        ats := s.host.ats.filter (· != f)
        atc := s.host.atc.filter fun e => e.1 != f }
      ev := { s.ev with queues := Tab.put s.ev.queues {} f {} } }
    s.raise { code := 0x0609, func := f, unit := 9 }

/-- RECOVERY_PERIOD_EXPIRY (R487): a context not adopted in time is closed. -/
def execRecoveryPeriodExpiry (x : Nat) (s : State) : Host.Outcome State Fault Refusal :=
  when (s.serving && (s.ctx x).st == .recoverable && (s.ctx x).closeCmd.isNone) s fun s =>
    (s.raiseCtx x 0x0706 []).closeCtx x 3 none

end Sys2Proof.Machine
end

