-- ==== Sys2Proof/Machine/Governor.lean ====
section
/-! DEFINITION. The governor: states, operating points, droop, rest, temperatures, heartbeats and energy accounting (R259, R260, R441 to R466,
R476 to R478). -/

namespace Sys2Proof.Machine

/-! ## The activity model (R460, R461) -/

/-- The group of a power domain (R461): the domains of quadrant q in group q, every other in G4. -/
def domainGroup (d : Nat) : Nat := if 6 ≤ d && d < 10 then d - 6 else if 10 ≤ d && d < 42 then (d - 10) / 8 else if 42 ≤ d then d - 42 else 4

/-- The energy of events in units of 1/16 pJ: each costs COEF of its operating point and event. -/
def Factory.eventEnergy (f : Factory) (l : List EventCount) : Nat :=
  (l.map fun e => if e.event < 15 then e.count * Tab.look f.coef 0 (64 * e.op + 4 * e.event) else 0).sum

/-- The events of a group that belong to a context, or to none. -/
def eventsOf (a : ActivityIn) (g : Nat) (x : Option Nat) : List EventCount := a.events.filter fun e => e.group == g && e.ctx == x

/-- Quarters of the leakage of a span that go to a context: for a core group one for each core that served it; the other leakage, and that
of every other domain, is unattributed. -/
def quartersOf (p : PowerSpan) (x : Option Nat) : Nat :=
  let users := if 10 ≤ p.domain && p.domain < 42 then p.users.take 4 else []
  match x with
  | some x => users.count x
  | none => 4 - users.length

/-- Leakage terms of a group that belong to a context, or to none: LEAK × ticks × quarters, with the domain's mean temperature. -/
def Factory.leakTerms (f : Factory) (a : ActivityIn) (g : Nat) (x : Option Nat) : List (Nat × Int) :=
  ((a.spans.filter fun p => domainGroup p.domain == g).map fun p =>
    (Tab.look f.leak 0 (16 * p.domain + 2 * p.op) * p.ticks * quartersOf p x, ((a.temps.find? fun t => t.1 == p.domain).map fun t => t.2).getD 85000)).filter
    fun t => t.1 != 0

/-- Modelled energy of a context in a group, or of the unattributed account, in µJ: nothing where nothing is charged. -/
def modelIn (f : Factory) (a : ActivityIn) (g : Nat) (x : Option Nat) : Nat :=
  let d := f.eventEnergy (eventsOf a g x)
  let l := f.leakTerms a g x
  if d = 0 && l.isEmpty then 0 else Config.fp32Model d l

/-- The contexts that an activity names. -/
def actContexts (a : ActivityIn) : List Nat :=
  sortBy id (((a.events.filterMap fun e => e.ctx) ++ a.spans.flatMap fun p => p.users).eraseDups)

/-- Modelled energy of a group: D of R461. -/
def modelledIn (f : Factory) (a : ActivityIn) (g : Nat) : Nat :=
  ((actContexts a).map fun x => modelIn f a g (some x)).sum + modelIn f a g none

/-! ## Governor states (R447, R449, R450, R453, R454) -/

/-- The state that the table of R450 gives, rows 2 to 5. -/
def State.govChoice (s : State) : GovState :=
  if s.capE < s.factory.pFloor then .paced
  else if !s.gov.levelMode then .governed
  else if s.factory.levelCeil ≤ s.capE && !((List.range 4).any fun q => (s.quad q).throttled) then .level
  else .levelSuspended

/-- The counter of turns in a state (R465). -/
def turnsCounter : GovState → Option Nat
  | .paced => some 5
  | .level => some 6
  | .levelSuspended => some 7
  | _ => none

/-- Enter a state of R450 at a boundary: its event, its operating points and its duty; per-turn records start anew. -/
def State.enterGov (s : State) (st : GovState) : State :=
  let old := s.gov.st
  let s := if st == .paced && old != .paced then s.raise { code := 0x0B02, unit := 10 } else s
  let s := if st == .levelSuspended && old == .level then
      (s.modGov fun g => { g with resumeDue := true }).raise { code := 0x0B03, unit := 10 } else s
  let s := if st == .level && s.gov.resumeDue then
      (s.modGov fun g => { g with resumeDue := false }).raise { code := 0x0B04, unit := 10 } else s
  let s := s.modGov fun g => { g with st, rest := false, forced := false, duty := if st == .paced then s.pacedParts else 64 }
  let s := (List.range 4).foldl (fun s q =>
    let s := s.modQuad q fun g => { g with fastest := g.op, slowest := g.op, throttled := g.hot, droopExcess := false }
    match turnsCounter st with
    | some n => s.bumpQuad q n 1
    | none => s) s
  match st with
  | .paced => s.moveAll 7
  | .level => s.moveAll 1
  | _ => s

/-- What the governor does in order step 4: caps come into force and the state is chosen; too low a cap leads to keeper mode (R447, R449, R450). -/
def State.govStep (s : State) : State :=
  let s := s.modGov fun g => { g with capMNow := g.capM, capHNow := g.capH, brakeInE := g.brake }
  if s.capE < s.factory.pKeep then (if .cap ∈ s.board.keeper then s else s.enterKeeper .cap [])
  else
    let s := s.clearCause .cap
    if s.powered then s.enterGov s.govChoice else s

/-- PACED_REST (R454): the end of part m of a turn. -/
def execPacedRest (s : State) : Host.Outcome State Fault Refusal :=
  when (s.powered && s.htUp && s.gov.st == .paced && !s.gov.rest && s.gov.duty < 64 && s.gov.duty * s.turn.expect ≤ 64 * s.turn.phase.toNat) s fun s =>
    s.modGov fun g => { g with rest := true }

/-! ## Operating points in GOVERNED (R451) -/

/-- Power of a group as the factor of its last agreeing turn corrects it (R451, R462). -/
def State.scaled (s : State) (g p : Nat) : Nat :=
  let f := s.gov.factors.getD g (1, 1)
  if f.2 = 0 then p else p * f.1 / f.2

/-- Power of group g over the last 1 ms, in mW, as the activity model and its factor give it. -/
def State.power (s : State) (t : TickIn) (g : Nat) : Nat := s.scaled g (modelledIn s.factory t.act g)

/-- The estimated input power over the last 1 ms, in mW: the model's, or in measurement-only operation the input meter's reading. -/
def State.estimate (s : State) (t : TickIn) : Nat :=
  if s.gov.measOnly then t.meter else ((List.range 5).map fun g => s.power t g).sum

/-- The target in mW. -/
def State.target (s : State) : Nat := if s.gov.measOnly then 900 * s.capE else 1000 * s.capE

/-- The first member of a list with the greatest key. -/
def firstMax (key : Nat → Nat) : List Nat → Option Nat
  | [] => none
  | a :: l => match firstMax key l with
    | some b => if key a < key b then some b else some a
    | none => some a

/-- The quadrant that would be lowered: the one of highest estimated power above OP7. -/
def State.lowerQuad (s : State) (t : TickIn) : Option Nat :=
  firstMax (fun q => s.power t q) ((List.range 4).filter fun q => (s.quad q).op < 7)

/-- Array issue cycles and vector engine cycles of a quadrant: the events 0 and 3 of R460. -/
def busyCycles (a : ActivityIn) (q : Nat) : Nat :=
  ((a.events.filter fun e => e.group == q && (e.event == 0 || e.event == 3)).map fun e => e.count).sum

/-- The quadrant that would be raised: the busiest below OP0 that is not being throttled (R456). -/
def State.raiseQuad (s : State) (t : TickIn) : Option Nat :=
  firstMax (fun q => busyCycles t.act q) ((List.range 4).filter fun q => 0 < (s.quad q).op && !(s.quad q).hot)

/-- One tick of the governor: at most one change. -/
def State.governorTick (s : State) (t : TickIn) : State :=
  let p := s.estimate t
  if s.target < p then
    let s := s.modGov fun g => { g with raiseRun := 0 }
    match s.lowerQuad t with
    | some q => s.moveQuad q ((s.quad q).op + 1)
    | none => s
  else match s.raiseQuad t with
    | none => s.modGov fun g => { g with raiseRun := 0 }
    | some q =>
      if p + t.raise.getD q 0 ≤ s.target then
        let s := s.modGov fun g => { g with raiseRun := g.raiseRun + 1 }
        if 40 ≤ s.gov.raiseRun then s.moveQuad q ((s.quad q).op - 1) else s
      else s.modGov fun g => { g with raiseRun := 0 }

/-- GOVERNOR_TICK (R451): in GOVERNED, and in LEVEL_SUSPENDED, which behaves as it; not while the brake forces OP7 (R449). -/
def execGovernorTick (t : TickIn) (s : State) : Host.Outcome State Fault Refusal :=
  when (s.powered && s.htUp && (s.gov.st == .governed || s.gov.st == .levelSuspended) && !s.gov.forced) s fun s => s.governorTick t

/-! ## Droop (R445) -/

/-- DROOP_DETECT. -/
def execDroopDetect (q : Nat) (s : State) : Host.Outcome State Fault Refusal :=
  when (s.powered && q < 4 && !(s.quad q).stretch) s fun s => (s.modQuad q fun g => { g with stretch := true }).bumpQuad q 2 1

/-- DROOP_RECOVER: the operands are the stretched cycles of this episode, and whether stretched cycles now exceed 1 % of the turn's. -/
def execDroopRecover (q cycles : Nat) (excess : Bool) (s : State) : Host.Outcome State Fault Refusal :=
  when (s.powered && q < 4 && (s.quad q).stretch) s fun s =>
    let s := (s.modQuad q fun g => { g with stretch := false }).bumpQuad q 3 cycles
    if excess && !(s.quad q).droopExcess then
      (s.modQuad q fun g => { g with droopExcess := true }).raise { code := 0x0B05, unit := 10, detail := [q] }
    else s

/-- Offsets raised after a turn with too much droop, within the range of R442. -/
def State.droopOffsets (s : State) : State :=
  ((List.range 4).filter fun q => (s.quad q).droopExcess).foldl (fun s q =>
    (List.range 8).foldl (fun s i => s.modGov fun g => { g with offsets := Tab.upd g.offsets 0 (8 * q + i) fun v => min 25 (v + 5) }) s) s

/-! ## Die temperatures (R456) -/

/-- Sensors of one quadrant: it is lowered one operating point at every tick from above 95 °C until it is at or below 92 °C. -/
def State.quadTemp (s : State) (q : Nat) (t : Int) : State :=
  let was := (s.quad q).hot
  let hot : Bool := if was then decide (92 < t) else decide (95 < t)
  let s := s.modQuad q fun g => { g with hot, throttled := g.throttled || hot }
  let s := if hot && !was then s.raise { code := 0x0B09, unit := 10, detail := [q] } else s
  if hot then (if (s.quad q).op < 7 then s.moveQuad q ((s.quad q).op + 1) else s).bumpQuad q 4 100 else s

/-- May the cause DIE_CRITICAL clear: every remaining sensor at or below 85 °C, 60 s passed; after the third entry in 24 hours, management orders
it (R489)? -/
def State.dieCooled (s : State) (l : List Int) : Bool :=
  let recent := s.board.dieCriticals.filter fun t => s.now < t + 24 * ticksHour
  (l.all fun t => t ≤ 85) && (s.board.dieCriticals.all fun t => t + 60 * ticksSecond ≤ s.now) && (recent.length < 3 || s.board.mgmtExit)

/-- DIE_TEMP_SAMPLE: the highest reading of each powered quadrant, and the hub's. -/
def execDieTempSample (quad : List Int) (hub : Int) (s : State) : Host.Outcome State Fault Refusal :=
  whenHold (s.board.domains.getLsbD 3) s fun s =>
    let all := hub :: quad
    if s.powered then
      (if all.any fun t => 105 < t then (s.raise { code := 0x0B0A, unit := 10 }).enterKeeper .dieCritical []
       else (List.range 4).foldl (fun s q => match quad[q]? with
         | some t => s.quadTemp q t
         | none => s) s)
    else if .dieCritical ∈ s.board.keeper then (if s.dieCooled all then s.clearCause .dieCritical else s)
    else if all.any fun t => 105 < t then (s.raise { code := 0x0B0A, unit := 10 }).enterKeeper .dieCritical []
    else s

/-! ## Package temperatures (R259, R260) -/

/-- The refresh multiple of a temperature. -/
def refreshFor (t : Int) : Nat := if 95 < t then 4 else if 85 < t then 2 else 1

/-- The readings, 1 ms apart, for which a package has been at least 3 °C below 85 °C, and below 95 °C, without a break (R259). -/
def coolRun (old : Nat × Nat) (t : Int) : Nat × Nat :=
  (if t ≤ 82 then old.1 + 1 else 0, if t ≤ 92 then old.2 + 1 else 0)

/-- The refresh multiple to which a package may fall: 1 000 readings are 1 s. -/
def refreshFloor (run : Nat × Nat) : Nat := if 1000 ≤ run.1 then 1 else if 1000 ≤ run.2 then 2 else 4

/-- The millisecond that a package has spent above the base refresh rate is counted on its channels (R263). -/
def State.countRefresh (s : State) (m rate : Nat) : State :=
  if rate = 1 then s else (List.range 8).foldl (fun s h => s.bumpChannel (8 * m + h) (if rate = 2 then 5 else 6) 1) s

/-- PACKAGE_TEMP_SAMPLE: rises act at once. -/
def execPackageTempSample (m : Nat) (t : Int) (s : State) : Host.Outcome State Fault Refusal :=
  whenHold (m < 48 && s.mgmtUp && s.board.stage != .recovery && s.board.stage != .tripped) s fun s =>
    let now := Tab.look s.mem.refresh 1 m
    let was := Tab.look s.mem.temps 0 m
    let s := s.countRefresh m now
    let s : State := { s with mem := { s.mem with
      temps := Tab.put s.mem.temps 0 m t
      cool := Tab.put s.mem.cool (0, 0) m (coolRun (Tab.look s.mem.cool (0, 0) m) t)
      refresh := Tab.put s.mem.refresh 1 m (max now (refreshFor t))
      hotPkgs := if 100 < t then addNew m s.mem.hotPkgs else s.mem.hotPkgs.filter (· != m) } }
    let s := if now < refreshFor t then s.raise { code := 0x0405, unit := 7, index := m } else s
    if 105 < t then
      let s := if was ≤ 105 then s.raise { code := 0x0406, unit := 7, index := m } else s
      if .memCritical ∈ s.board.keeper then s else s.enterKeeper .memCritical []
    else if s.mem.hotPkgs.isEmpty then s.clearCause .memCritical
    else s

/-- REFRESH_RATE_FALL: the package has been at least 3 °C below the threshold for 1 s. -/
def execRefreshRateFall (m : Nat) (s : State) : Host.Outcome State Fault Refusal :=
  when (m < 48 && refreshFloor (Tab.look s.mem.cool (0, 0) m) < Tab.look s.mem.refresh 1 m) s fun s =>
    { s with mem := { s.mem with refresh := Tab.put s.mem.refresh 1 m (refreshFloor (Tab.look s.mem.cool (0, 0) m)) } }

/-! ## Heartbeats (R476 to R478) -/

/-- Age of a processor's last heartbeat in ticks. -/
def State.hbOld (s : State) (p : Nat) : Nat := s.now - Tab.look s.board.hbAge 0 p

/-- Does the watchdog run: HT powered, HC powered, its firmware seen, no keeper mode (R20, R476 to R478)? -/
def State.watchdogOn (s : State) : Bool := s.htUp && (s.board.stage == .ready || s.board.stage == .cores) && !s.board.faulted.contains 2 && s.board.hbSeen

/-- HEARTBEAT: the first one starts the watchdog for all four processors. -/
def execHeartbeat (p : Nat) (s : State) : Host.Outcome State Fault Refusal :=
  when (p < 4 && (s.board.stage == .ready || s.board.stage == .cores) && !s.board.faulted.contains 2) s fun s =>
    let l := if s.board.hbSeen then [p] else [0, 1, 2, 3]
    { s with board := { s.board with
      hbSeen := true
      hbAge := l.foldl (fun t i => Tab.put t 0 i s.now) s.board.hbAge
      hbLate := s.board.hbLate.filter (· != p) } }

/-- FW_HEARTBEAT_LATE: once for a lapse. -/
def execFwHeartbeatLate (p : Nat) (s : State) : Host.Outcome State Fault Refusal :=
  when (p < 4 && s.watchdogOn && p ∉ s.board.hbLate && 5 * ticksMs ≤ s.hbOld p) s fun s =>
    ({ s with board := { s.board with hbLate := addNew p s.board.hbLate } } : State).raiseDev 0x0C01 12 0 [p]

/-- FW_WATCHDOG: rest at once, then a warm reset, or keeper mode. During a reset nothing runs that could rest, and the reset it would start is
ignored (R479); the watchdog then waits for the next first heartbeat. -/
def execFwWatchdog (p : Nat) (s : State) : Host.Outcome State Fault Refusal :=
  whenHold (p < 4 && s.watchdogOn && 50 * ticksMs ≤ s.hbOld p) s fun s =>
    let s := (s.raiseDev 0x0C02 12 0 [p]).modGov fun g => { g with rest := s.powered }
    let s : State := { s with board := { s.board with hbSeen := false } }
    if s.params.watchdogKeep then s.enterKeeper .watchdog [] else s.warmReset 3

/-! ## Energy (R459 to R464) -/

/-- Meters of a group in the order of R590 (R461). -/
def groupMeters (g : Nat) : List Nat :=
  if g < 4 then [6 + g, 42 + g, 46 + g] ++ (List.range 8).map fun i => 10 + 8 * g + i else [0, 1, 2, 3, 4, 5]

/-- Measured energy of a group; the last one has the conversion loss too. -/
def measuredIn (e : EnergyIn) (g : Nat) : Nat :=
  let own := ((groupMeters g).map fun i => e.meters.getD i 0).sum
  if g < 4 then own else own + (e.input - e.meters.sum)

/-- floor(M × D_x ÷ D) (R461). -/
def charge (m d dx : Nat) : Nat := if d = 0 then 0 else m * dx / d

/-- What a context is charged in all five groups. -/
def chargedIn (f : Factory) (e : EnergyIn) (x : Nat) : Nat :=
  ((List.range 5).map fun g => charge (measuredIn e g) (modelledIn f e.act g) (modelIn f e.act g (some x))).sum

/-- Do measured and modelled energy of a group agree (R462)? -/
def agrees (m d : Nat) : Bool := 100 * (max m d - min m d) ≤ 15 * max m 100000

/-- Does a group agree (R462)? -/
def agreesIn (f : Factory) (e : EnergyIn) (g : Nat) : Bool := agrees (measuredIn e g) (modelledIn f e.act g)

/-- Contexts charged any energy. -/
def energyContexts (f : Factory) (e : EnergyIn) : List Nat := (actContexts e.act).filter fun x => 0 < chargedIn f e x

/-- Memory codewords read and written for a context: the events 9 and 10 of R460. -/
def codewordsOf (a : ActivityIn) (x : Nat) : Nat :=
  ((a.events.filter fun e => e.ctx == some x && (e.event == 9 || e.event == 10)).map fun e => e.count).sum

/-- A number of a list of pairs. -/
def pairSum (l : List (Nat × Nat)) (x : Nat) : Nat := ((l.filter fun p => p.1 == x).map fun p => p.2).sum

/-- The part of an energy record that all records of a turn share. -/
def State.energyBase (s : State) (n : BitVec 64) (ticks : Nat) : EnergyRec :=
  let level := s.gov.st == .level && (List.range 4).all fun q => (s.quad q).fastest == 1 && (s.quad q).slowest == 1
  { turn := n, ctx := 0, unattr := true, unreconciled := false, skipped := false, paced := s.gov.st == .paced, level
    measOnly := s.gov.measOnly, ticks, energy := 0, model := 0, coreTicks := 0, memCw := 0, cap := s.capE
    opMax := ((List.range 4).map fun q => (s.quad q).fastest).foldl min 7
    opMin := ((List.range 4).map fun q => (s.quad q).slowest).foldl max 0
    duty := s.gov.duty }

/-- Mark the records of the turns from `lo` on as UNRECONCILED (R463). -/
def State.markRecords (s : State) (lo : Nat) : State :=
  s.modGov fun g => { g with records := g.records.map fun r => if lo ≤ r.turn.toNat then { r with unreconciled := true } else r }

/-- Ten turns in a row in which one group failed to agree (R463). -/
def State.unreconcile (s : State) : State :=
  let s := (s.markRecords (s.turn.count.toNat - 10)).modGov fun g => { g with measOnly := true, agree := 0 }
  ((List.range 4).foldl (fun s q => s.bumpQuad q 8 10) s).raise { code := 0x0B0C, unit := 10 }

/-- Ten turns in a row in which every group agreed (R463). -/
def State.reconcile (s : State) : State := (s.modGov fun g => { g with measOnly := false }).raise { code := 0x0B0D, unit := 10 }

/-- Must measurement-only operation start, or end? -/
def State.mustUnreconcile (s : State) : Bool := !s.gov.measOnly && s.gov.disagree.any fun n => 10 ≤ n
/-- See `State.mustUnreconcile`. -/
def State.mayReconcile (s : State) : Bool := s.gov.measOnly && 10 ≤ s.gov.agree

/-- ENERGY_UNRECONCILED (R463); a boundary does it too. -/
def execEnergyUnreconciled (s : State) : Host.Outcome State Fault Refusal := when s.mustUnreconcile s State.unreconcile

/-- ENERGY_RECONCILED (R463); a boundary does it too. -/
def execEnergyReconciled (s : State) : Host.Outcome State Fault Refusal := when s.mayReconcile s State.reconcile

/-- Whether the groups agreed in a turn, counted, with the factors of those that did (R462, R463). -/
def Governor.tally (g : Governor) (f : Factory) (e : EnergyIn) : Governor :=
  let ok := (List.range 5).map (agreesIn f e)
  { g with
    disagree := (g.disagree.zip ok).map fun p => if p.2 then 0 else p.1 + 1
    agree := if ok.all id then g.agree + 1 else 0
    factors := (g.factors.zipIdx).map fun v =>
      if agreesIn f e v.2 && modelledIn f e.act v.2 != 0 then (measuredIn e v.2, modelledIn f e.act v.2) else v.1 }

/-- Order step 2, at every boundary: the input meter and every rail-energy meter are read (R26, R39, R590). -/
def State.readMeters (s : State) (e : EnergyIn) : State :=
  s.modGov fun g => { g with
    inputMeter := (g.inputMeter + e.input) % 2 ^ 64
    meters := (e.meters.zipIdx).foldl (fun t m => Tab.upd t 0 m.2 fun v => (v + m.1) % 2 ^ 64) g.meters }

/-- The cycle counts of the turn that has ended: BANK_WAIT, and the rest of SLUICE_STALL (R128, R153). -/
def State.countWaits (s : State) (e : EnergyIn) : State :=
  (e.waits.filter fun w => w.1 < 128).foldl (fun s w => (s.bumpCore w.1 0 w.2.1).bumpCore w.1 4 w.2.2) s

/-- Order step 2: the energy records of turn `n` close over the readings; turns from there to the new count were skipped (R41, R464). -/
def State.closeEnergy (s : State) (e : EnergyIn) (n : BitVec 64) (ticks : Nat) : State :=
  let base := s.energyBase n ticks
  let f := s.factory
  let xs := energyContexts f e
  let recs := xs.map fun x => { base with
    ctx := x, unattr := false, energy := chargedIn f e x, model := ((List.range 5).map fun g => modelIn f e.act g (some x)).sum
    coreTicks := pairSum e.coreTicks x, memCw := codewordsOf e.act x }
  let total := ((List.range 5).map (measuredIn e)).sum
  let rest : EnergyRec := { base with
    energy := total - (recs.map fun r => r.energy).sum, model := ((List.range 5).map fun g => modelIn f e.act g none).sum }
  let lo := max (n.toNat + 1) (s.turn.count.toNat - 65536)
  let gap := (List.range (s.turn.count.toNat - lo)).map fun i =>
    { base with turn := BitVec.ofNat 64 (lo + i), skipped := true, ticks := 0, energy := 0, model := 0 }
  let was := s.gov.measOnly
  let s := s.modGov fun g => { g.tally f e with
    charged := recs.foldl (fun t r => Tab.upd t 0 r.ctx fun v => (v + r.energy) % 2 ^ 64) g.charged
    records := (g.records ++ recs ++ [rest] ++ gap).filter fun r => s.turn.count.toNat ≤ r.turn.toNat + 65536 }
  if was then
    (if s.mayReconcile then s.reconcile else ((List.range 4).foldl (fun s q => s.bumpQuad q 8 1) s).markRecords n.toNat)
  else if s.mustUnreconcile then s.unreconcile
  else s

/-! ## Unused core groups (R451, R452) -/

/-- Order step 5: a core group prepared at the boundary before, on which nothing has been placed since, is powered off. -/
def State.powerOffIdle (s : State) : State :=
  if s.gov.st == .level then s
  else
    let due := (List.range 32).filter fun g =>
      16 ≤ Tab.look s.gov.idleTurns 0 g && (List.range 4).all fun i => s.coreIdle (4 * g + i) && (s.residents (4 * g + i)).isEmpty
    { s with board := { s.board with domains := s.board.domains &&& ~~~domainMask (due.map fun g => 10 + g) } }

/-- In order step 7: count boundaries without a context; at the sixteenth the shelves on the group are evicted. In LEVEL no
group is prepared (R452). -/
def State.countIdle (s : State) : State :=
  let ran := s.gov.ranGroups
  (List.range 32).foldl (fun s g =>
    if ran.contains g || !((List.range 4).all fun i => s.coreIdle (4 * g + i)) then s.modGov fun v => { v with idleTurns := Tab.del v.idleTurns g }
    else
      let old := Tab.look s.gov.idleTurns 0 g
      let n := if s.gov.st == .level then min 15 (old + 1) else min 16 (old + 1)
      let s := s.modGov fun v => { v with idleTurns := Tab.put v.idleTurns 0 g n }
      if n = 16 && old = 15 then
        (List.range 4).foldl (fun s i => (s.residents (4 * g + i)).foldl (fun s e => s.evict e.1 e.2.1) s) s
      else s) (s.modGov fun v => { v with ranGroups := [] })

end Sys2Proof.Machine
end

