-- ==== Sys2Proof/Machine/Params.lean ====
section
/-! DEFINITION. The parameters that management sets: ranges, and how each takes effect (R99, R156, R262, R307, R319, R372, R375 to R377, R381,
R400, R415, R440, R446, R466, R494, R503, R519, R543, R559, R560). -/

namespace Sys2Proof.Machine

/-! ## When a change acts -/

/-- When a change takes effect: at once, in order step 4, or in order step 7 of a boundary. -/
inductive ChangeStep where
  | now | four | seven
  deriving DecidableEq, Repr

/-- See the tables of the rules above; C_B acts at once (R466), G and the CXL.mem size become pending at once (R262, R319). -/
def changeStep : Change → ChangeStep
  | .globalBoundary _ => .now
  | .cxlMemSize _ => .now
  | .capB _ => .now
  | .allowList _ => .now
  | .trustAnchors _ => .now
  | .identities _ => .now
  | .layout _ => .seven
  | .funcPartition _ _ => .seven
  | .funcPriority _ _ => .seven
  | .contextQuota _ _ => .seven
  | .sliceLength _ _ => .seven
  | .spillRegion _ => .seven
  | .spillQuota _ _ => .seven
  | _ => .four

/-- The roles that a change needs (R504). -/
def changeRoles : Change → List Role
  | .allowList _ => roleAdmin
  | .trustAnchors _ => roleAdmin
  | .identities _ => roleAdmin
  | _ => roleConfig

/-! ## Ranges -/

/-- The layout that the changes accepted so far lead to. -/
def State.lastLayout (s : State) : Nat :=
  s.sched.foldl (fun n e => match e.2 with
    | .layout v => v
    | _ => n) s.net.layout

/-- The partition of a function that they lead to. -/
def State.lastPart (s : State) (f : Nat) : Nat :=
  s.sched.foldl (fun n e => match e.2 with
    | .funcPartition g v => if g = f then v else n
    | _ => n) (s.func f).partition

/-- The size of the spill region that they lead to. -/
def State.lastRegion (s : State) : Nat :=
  s.sched.foldl (fun n e => match e.2 with
    | .spillRegion l => (l.map fun x => x.2).sum
    | _ => n) ((s.net.spillRegion.map fun x => x.2).sum)

/-- Has a function an open context (R377)? -/
def State.funcOpen (s : State) (p : Nat → Bool) : Bool := s.ctxs.any fun e => e.2.st != .closed && p e.2.req.func

/-- Quadrants in which a collection has pages. -/
def Coll.quads (k : Coll) : List Nat := ((k.body.pages ++ k.replicaPages).map fun e => dpaQuad (e.2 * Config.page)).eraseDups

/-- Would some collection span two partitions of a layout (R377)? -/
def State.spans (s : State) (layout : Nat) : Bool :=
  s.colls.any fun k => match k.2.quads with
    | [] => false
    | q :: l => l.any fun r => r / layoutWidth layout != q / layoutWidth layout

/-- Extents of the slower tier, 2 MiB-aligned. -/
def extentsOk (l : List (Nat × Nat)) : Bool := l.all fun e => e.1 % Config.page == 0 && e.2 % Config.page == 0 && 0 < e.2 && e.1 + e.2 ≤ 2 ^ 52

/-- Is a change within the range that its rule gives? -/
def State.changeOk (s : State) (c : Change) : Bool :=
  match c with
  | .widthMode _ => true
  | .uniformWidth w => 56 ≤ w && w ≤ 64
  | .fillerThreshold n => n ≤ 4095
  | .selfTestInterval h => 1 ≤ h && h ≤ 168
  | .deadlineBounds lo hi => 10000 ≤ lo && lo ≤ hi && hi ≤ 100000000
  | .deadlockInterval t => 1000 ≤ t && t ≤ 1000000
  | .globalBoundary g => g ≤ 1041
  | .scrubInterval h => 1 ≤ h && h ≤ 168
  | .digestScrub h => 1 ≤ h && h ≤ 168
  | .shardTimeout t => 1 ≤ t && t ≤ 600
  | .replica id _ => (Tab.opt s.colls id).isSome
  | .backing id l => (Tab.opt s.colls id).isSome && extentsOk l
  | .cxlMemSize n => n ≤ 256
  | .layout n => (n == 1 || n == 2 || n == 4) && !s.funcOpen (fun _ => true) && !s.spans n && (List.range 64).all fun f => s.lastPart f < n
  | .funcPartition f p => f < 64 && p < s.lastLayout && !s.funcOpen fun g => g == f
  | .funcPriority f p => f < 64 && p ≤ 3
  | .contextQuota f q => f < 64 && 1 ≤ q && q ≤ 256
  | .sliceLength p q => p < 4 && 1 ≤ q && q ≤ 1024
  | .spillRegion l => l.length ≤ 64 && extentsOk l
  | .spillQuota f n => f < 64 && n ≤ s.lastRegion
  | .nodeId n => n ≤ 0xFFFE
  | .portEnable p _ => p < 8
  | .route node _ p => node < 65536 && p < 8
  | .transit p _ => p < 4
  | .fmNode n => n.all fun v => v ≤ 0xFFFE
  | .remoteTimeout t => 1 ≤ t && t ≤ 10000
  | .retryLimit t => 1 ≤ t && t ≤ 60000
  | .abuseThreshold n => 100 ≤ n && n ≤ 1000000
  | .stallTurns n => 1 ≤ n && n ≤ 1000000
  | .perfMode _ => true
  | .capM w => 150 ≤ w && w ≤ 1900
  | .capB w => w ≤ 1900
  | .offset g v => g < 32 && v % 5 == 0 && v ≤ 25 && -25 ≤ v
  | .watchdogPolicy _ => true
  | .recoveryPeriod t => 10 ≤ t && t ≤ 3600
  | .sealInterval n => n ≤ 1000000
  | .opticalTrim p h => p < 8 && h ≤ 4
  | .allowList l => l.length ≤ 1024
  | .trustAnchors l => 1 ≤ l.length && l.length ≤ 4
  | .identities l => l.length ≤ 64 && l.any fun i => i.2.contains .admin

/-! ## Effects -/

/-- Change the parameters of R262 and others. -/
def State.modParams (s : State) (f : Params → Params) : State := { s with params := f s.params }

/-- Change the parameters of R381, R400 and R415. -/
def State.modNet (s : State) (f : NetParams → NetParams) : State := { s with net := f s.net }

/-- Change a function's parameters. -/
def State.modFunc (s : State) (f : Nat) (g : FuncParams → FuncParams) : State := s.modNet fun n => { n with funcs := Tab.upd n.funcs {} f g }

/-- Turn a collection's replica on, to be built when there is room, or off, its pages given back (R297, R307). -/
def State.setReplica (s : State) (id : Nat) (on : Bool) : State :=
  if on then { s with colls := Tab.change s.colls id fun k => { k with wantReplica := true } }
  else
    let s := s.freePages (s.mem.pagesOf fun u => u == .collReplica id)
    { s with colls := Tab.change s.colls id fun k => { k with wantReplica := false, replica := false, replicaPages := [] } }

/-- A layout takes effect; a collection keeps its quadrants, whose partition has another number now (R376, R377). -/
def State.setLayout (s : State) (n : Nat) : State :=
  let old := layoutWidth s.net.layout
  let s := s.modNet fun p => { p with layout := n }
  let move : Coll → Coll := fun k => { k with part := ((k.quads.head?).getD (k.part * old)) / layoutWidth n }
  { s with colls := s.colls.map fun k => (k.1, move k.2) }

/-- Put a change into effect. -/
def State.applyChange (s : State) (c : Change) : State :=
  match c with
  | .widthMode u => s.modParams fun p => { p with uniform := u }
  | .uniformWidth w => s.modParams fun p => { p with wU := w }
  | .fillerThreshold n => s.modParams fun p => { p with filler := n }
  | .selfTestInterval h => s.modParams fun p => { p with selfTest := h }
  | .deadlineBounds lo hi => s.modParams fun p => { p with deadlineMin := lo, deadlineMax := hi }
  | .deadlockInterval t => s.modParams fun p => { p with deadlock := t }
  | .globalBoundary g => s.modParams fun p => { p with gPending := some g }
  | .scrubInterval h => s.modParams fun p => { p with scrub := h }
  | .digestScrub h => s.modParams fun p => { p with digestScrub := h }
  | .shardTimeout t => s.modParams fun p => { p with shardTimeout := t }
  | .replica id on => s.setReplica id on
  | .backing id l => { s with colls := Tab.change s.colls id fun k => { k with backing := l } }
  | .cxlMemSize n => s.modParams fun p => { p with cxlMemPending := some n }
  | .layout n => s.setLayout n
  | .funcPartition f p => s.modFunc f fun v => { v with partition := p }
  | .funcPriority f p => s.modFunc f fun v => { v with priority := p }
  | .contextQuota f q => s.modFunc f fun v => { v with quota := q }
  | .sliceLength p q => s.modNet fun n => { n with slice := Tab.put n.slice 4 p q }
  | .spillRegion l => s.modNet fun n => { n with spillRegion := l }
  | .spillQuota f b => s.modFunc f fun v => { v with spillQuota := b }
  | .nodeId n => s.modNet fun p => { p with node := some n }
  | .portEnable p on => s.enablePort p on
  | .route node valid port => s.modNet fun n => { n with routes := Tab.put n.routes {} node { valid, port } }
  | .transit p on => s.modNet fun n => { n with transit := if on then n.transit ||| (1#4 <<< p) else n.transit &&& ~~~(1#4 <<< p) }
  | .fmNode v => s.modNet fun n => { n with fmNode := v }
  | .remoteTimeout t => s.modNet fun n => { n with remoteTimeout := t }
  | .retryLimit t => s.modNet fun n => { n with retryLimit := t }
  | .abuseThreshold v => s.modNet fun n => { n with abuse := v }
  | .stallTurns n => s.modParams fun p => { p with stallTurns := n }
  | .perfMode l => s.modGov fun g => { g with levelMode := l }
  | .capM w => s.modGov fun g => { g with capM := w }
  | .capB w => s.modGov fun g => { g with capB := w }
  | .offset i v => s.modGov fun g => { g with offsets := Tab.put g.offsets 0 i v }
  | .watchdogPolicy k => s.modParams fun p => { p with watchdogKeep := k }
  | .recoveryPeriod t => s.modParams fun p => { p with recovery := t }
  | .sealInterval n => s.modParams fun p => { p with sealEvery := n }
  | .opticalTrim p h => s.modNet fun n => { n with trims := Tab.put n.trims 0 p h }
  | .allowList l => { s with sec := { s.sec with allow := l } }
  | .trustAnchors l => { s with sec := { s.sec with anchors := l } }
  | .identities l => { s with sec := { s.sec with idents := l } }

/-- Changes due at this boundary in an order step: in ascending turn, each filed for the turn that it acts at, and within a turn as received
(R41, R505). -/
def State.changesOf (s : State) (k : ChangeStep) : State :=
  let n := s.turn.count.toNat
  let hit : Nat × Change → Bool := fun e => e.1 ≤ n && changeStep e.2 == k
  let due := sortBy (fun (e : Nat × Change) => e.1) (s.sched.filter hit)
  let s : State := { s with sched := s.sched.filter fun e => !hit e }
  due.foldl (fun s e => s.applyChange e.2) s

/-- MGMT_CONFIG_CHANGE (R504, R505): a request whose ETag is not the current one is refused; the accepted change acts at once, or waits for
its boundary. -/
def execMgmtConfigChange (who : Client) (turn etag : Option Nat) (c : Change) (s : State) : Host.Outcome State Fault Refusal :=
  mgmt who (changeRoles c) s fun s =>
    if etag.any fun e => e != s.sec.etag then s.emit (.http 412 [])
    else s.acceptConfig (s.changeOk c) fun s =>
      if changeStep c == .now then s.applyChange c else { s with sched := s.sched ++ [(s.turn.fileTurn turn, c)] }

/-! ## The field area (R559) -/

/-- What a field area written now holds: values in force, with the changes that wait for their boundary (log entry 29). -/
def State.fieldNow (s : State) : FieldArea :=
  let t := s.sched.foldl (fun t e => t.applyChange e.2) s
  let u := s.units
  { turn := if s.htUp then s.turn.sched.foldl (fun p e => p.change e.2) s.turn.params else s.fw.field.turn
    params := t.params, net := t.net, levelMode := t.gov.levelMode, capM := t.gov.capM, capB := t.gov.capB, offsets := t.gov.offsets
    owned := s.sec.owned, anchors := s.sec.anchors, idents := s.sec.idents, allow := s.sec.allow
    cols := u.pendCols.foldl (fun t e => Tab.upd t [] e.1 fun l => l ++ e.2) u.fieldCols
    lanes := u.pendLanes.foldl (fun t e => Tab.upd t [] e.1 fun l => l ++ e.2) u.fieldLanes
    withdrawn := u.withdrawn, retired := s.mem.retired }

/-- FIELD_AREA_WRITE: the other copy is written with the next sequence number; requests that wait for it are answered. -/
def execFieldAreaWrite (s : State) : Host.Outcome State Fault Refusal :=
  when (s.mgmtUp && s.board.stage != .tripped && s.fw.fieldDirty) s fun s =>
    let f := s.fieldNow
    let n := s.fw.answers
    let s : State := { s with fw := { s.fw with field := f, fieldSeq := s.fw.fieldSeq + 1, fieldDirty := false, answers := 0 } }
    { s with out := s.out ++ List.replicate n (.http 204 []) }

end Sys2Proof.Machine
end

