-- ==== Sys2Proof/Machine/Boundary.lean ====
section
/-! DEFINITION. The turn boundary: its eight order steps (R39 to R41), time slices and placement (R359, R364, R370), the exit from keeper mode
(R492), and what else happens at boundaries. -/

namespace Sys2Proof.Machine

/-! ## Time slices and placement (R364) -/

/-- Priority of a context. -/
def State.priority (s : State) (x : Nat) : Nat := (s.func (s.ctx x).req.func).priority

/-- The slice length Q of a context's partition. -/
def State.sliceOf (s : State) (x : Nat) : Nat := Tab.look s.net.slice 4 (s.partOfCtx x)

/-- Turns that a context has run, or waited, without a break. -/
def State.turnsSince (s : State) (t : BitVec 64) : Nat := s.turn.count.toNat - t.toNat

/-- WAITING contexts of a partition in the order in which they are considered: priority, longest wait, lower number. -/
def State.waiters (s : State) (p : Nat) : List Nat :=
  let l := (s.ctxs.filter fun e => e.2.st == .waiting && s.partOfCtx e.1 == p).map fun e => e.1
  sortBy (fun x => (3 - s.priority x) * 2 ^ 80 + (s.ctx x).waitStart.toNat * 256 + x) l

/-- Running contexts of the partition that may be taken off for a context x, in the order in which they are taken. -/
def State.candidates (s : State) (p x : Nat) : List Nat :=
  let may : Nat × Ctx → Bool := fun e =>
    let n := s.turnsSince e.2.runStart
    e.2.st == .running && s.partOfCtx e.1 == p &&
      ((s.sliceOf e.1 ≤ n && s.priority e.1 ≤ s.priority x) || (1 ≤ n && s.priority e.1 < s.priority x))
  let l := (s.ctxs.filter may).map fun e => e.1
  sortBy (fun y => s.priority y * 2 ^ 80 + (s.ctx y).runStart.toNat * 256 + (255 - y)) l

/-- The first choice of k members of a list, in the list's order, that satisfies a test. -/
def pickFrom (ok : List Nat → Bool) : List Nat → Nat → List Nat → Option (List Nat)
  | _, 0, acc => if ok acc then some acc else none
  | [], _ + 1, _ => none
  | a :: l, k + 1, acc => match pickFrom ok l k (acc ++ [a]) with
    | some r => some r
    | none => pickFrom ok l (k + 1) acc

/-- The fewest candidates whose cores let a context be placed. -/
def fewest (ok : List Nat → Bool) (l : List Nat) : Option (List Nat) :=
  (List.range l.length).findSome? fun k => pickFrom ok l (k + 1) []

/-- The core set of a context if the contexts `off` were taken off, those that hold a reservation keeping the cores that could qualify for
them. -/
def State.plan (s : State) (x : Nat) (off held : List Nat) : Option (List Nat) :=
  let free : Nat → Bool := fun c => !s.underTest c && match s.ownerOf c with
    | none => true
    | some (y, _) => off.contains y
  let kept : Nat → Bool := fun c => held.any fun y => s.qualifies (s.ctx y).req (s.ctx y).width c
  s.chooseCores x (fun c => free c && !kept c) false

/-- Consider one waiting context: place it, after taking off the fewest candidates where that helps; otherwise pass it over, or reserve its
cores once it has waited 2Q turns. The state, the contexts taken off, and those that hold a reservation are answered. -/
def State.consider (p : Nat) (a : State × List Nat × List Nat) (x : Nat) : State × List Nat × List Nat :=
  let s := a.1
  match s.plan x [] a.2.2 with
  | some l => (s.placeCtx x l, a.2)
  | none =>
    match fewest (fun off => (s.plan x off a.2.2).isSome) (s.candidates p x) with
    | some off =>
      let l := (s.plan x off a.2.2).getD []
      let s := off.foldl (fun s y => s.takeOff y) s
      (s.placeCtx x l, a.2.1 ++ off, a.2.2)
    | none => (s, a.2.1, if 2 * s.sliceOf x ≤ s.turnsSince (s.ctx x).waitStart then a.2.2 ++ [x] else a.2.2)

/-- The scheduling of one partition: the contexts that waited already, then those taken off at this boundary. -/
def State.slices (s : State) (p : Nat) : State :=
  let r := (s.waiters p).foldl (State.consider p) (s, [], [])
  let again := (r.1.waiters p).filter fun x => x ∈ r.2.1
  (again.foldl (State.consider p) (r.1, [], r.2.2)).1

/-- A waiting context that no core set could hold: its kernel commands complete as WIDTH_UNAVAILABLE (R370). -/
def State.widthCheck (s : State) : State :=
  s.ctxs.foldl (fun s e =>
    if e.2.st != .waiting || s.couldPlace e.1 then s
    else
      let s := s.raiseCtx e.1 0x0701 []
      let s := e.2.kernels.foldl (fun s r => match s.cmd r.handle with
        | some m => s.cancelCmd m 0x07 0
        | none => s) s
      s.modCtx e.1 fun cx => if cx.kernels.isEmpty then { cx with st := .idle } else cx) s

/-- Contexts that are being opened have their first placement (R359). -/
def State.openings (s : State) : State :=
  (s.ctxs.filter fun e => e.2.st == .opening && e.2.opening.isSome).foldl (fun s e => s.placeOpening e.1 s.board.warmCause) s

/-- Turns run and waited are counted (R380). -/
def State.countTurns (s : State) : State :=
  s.ctxs.foldl (fun s e =>
    let s := if e.2.ran then s.bumpFw e.1 0 1 else s
    let s := if e.2.st == .waiting then s.bumpFw e.1 3 1 else s
    if e.2.ran && e.2.st != .running then s.modCtx e.1 fun cx => { cx with ran := false } else s) s

/-- Order step 7. -/
def State.stepSeven (s : State) : State :=
  let s := (s.changesOf .seven).countIdle.widthCheck
  let s := (List.range s.net.layout).foldl (fun s p => s.slices p) s
  s.openings

/-! ## Other things that a boundary does -/

/-- A physical upset is found in stored bits of a core that serves a context (R139, R186). -/
def State.applyUpset (s : State) (u : Upset) : State :=
  match u with
  | .word c i hard =>
    match s.ownerOf c with
    | none => s
    | some (x, k) =>
      if 8192 * (s.ctx x).req.shelves ≤ i then s
      else s.modLcore x k fun l => if hard then { l with bad := addNew i l.bad } else { l with soft := addNew i l.soft }
  | .codeword dpa err => s.upset dpa err
  | .tile c t i j hard =>
    if t < 16 && i < 64 && j < 64 then
      s.modCore c fun k => if hard then { k with vbad := addNew (4096 * t + 64 * i + j) k.vbad } else { k with vsoft := addNew (4096 * t + 64 * i + j) k.vsoft }
    else s
  | .mask c m i hard =>
    if m < 8 && i < 64 then
      s.modCore c fun k => if hard then { k with vbad := addNew (65536 + 64 * m + i) k.vbad } else { k with vsoft := addNew (65536 + 64 * m + i) k.vsoft }
    else s

/-- Counts and marks that hold for one turn start anew (R96, R97, R245, R321, R409, R473, R506). -/
def State.newTurn (s : State) : State :=
  let calm : Port → Port := fun o => { o with rejects := 0, abusers := [] }
  { s with
    ev := { s.ev with perCtx := [], perDev := 0, throttledCtx := 0, throttledDev := 0 }
    mem := { s.mem with mismTurn := [] }
    units := { s.units with lastGrant := [], interval := [] }
    host := { s.host with denied := [] }
    sec := { s.sec with failRaised := [] }
    fabric := { s.fabric with violations := [], ports := s.fabric.ports.map fun o => (o.1, calm o.2) } }

/-- EVENTS_THROTTLED for the turn that has ended (R473). -/
def State.reportThrottled (s : State) (byCtx byDev : Nat) : State :=
  if byCtx + byDev = 0 then s else s.raiseDev 0x0C07 12 0 [byCtx, byDev]

/-- Weight keys whose turn has come are removed (R508). -/
def State.expireKeys (s : State) : State :=
  { s with sec := { s.sec with wkeys := s.sec.wkeys.filter fun k => k.expires = 0 || s.turn.count < k.expires } }

/-- WEIGHT_KEY_EXPIRY (R508); a boundary does it too. -/
def execWeightKeyExpiry (d : Digest) (s : State) : Host.Outcome State Fault Refusal :=
  when (s.sec.wkeys.any fun k => k.digest == d && k.expires != 0 && k.expires ≤ s.turn.count) s fun s =>
    { s with sec := { s.sec with wkeys := s.sec.wkeys.filter fun k => k.digest != d } }

/-- Contexts whose ledger has not been sealed by the interval at the boundary that began this turn (R543). -/
def State.unsealedNow (s : State) : List Nat :=
  (s.ctxs.filter fun e => e.2.st ∈ [.idle, .waiting, .running, .closing] &&
    !(e.2.ledger.records.any fun r => r.kind = 7 && r.turn == s.turn.count)).map fun e => e.1

/-- SEAL_INTERVAL (R543): at the boundary of a turn that is a multiple of the interval; order step 3 does it too. -/
def execSealInterval (s : State) : Host.Outcome State Fault Refusal :=
  when (s.serving && s.turn.st.counts && s.turn.phase == 0 && s.params.sealEvery != 0 && s.turn.count.toNat % s.params.sealEvery == 0 &&
      !s.unsealedNow.isEmpty) s fun s =>
    s.unsealedNow.foldl (fun s x => s.seal x 2 none s.gov.st.code) s

/-- The exit from keeper mode with an image that verifies (R492, R550): domains come up, memory leaves self-refresh, units are tested, ports may train, contexts that an FLR marked are
closed, and every doorbell is read afresh. -/
def State.leaveKeeper (s : State) (found : Tested) : State :=
  let s : State := { s with
    mem := { s.mem with selfRefresh := 0 }
    gov := { s.gov with st := .governed }
    board := { s.board with stage := .ready, domains := s.upDomains, mgmtExit := false } }
  let s := ((s.moveAll 7).failChannels found.channels).unitTests found.columns found.lanes
  let s := s.ctxs.foldl (fun s e =>
    if e.2.marked && e.2.st != .scrubbing then (s.cancelAll e.1 0x0C 0).closeCtx e.1 2 none else s) s
  let s := (s.raiseDev 0x0C04 12 0 []).imageReady
  (s.rereadDoorbells []).takeAdmin.brakeAtReady

/-- The exit from keeper mode: the image is read and verified again, and one that fails leaves the module to the recovery loader (R549, R550). -/
def State.exitKeeper (s : State) (found : Tested) : State :=
  let s := s.rereadImage
  if s.fw.image.ok then s.leaveKeeper found else s.recoveryLoader 3

/-- The end of keeper mode where every cause has cleared and every package is at or below 100 °C (R260, R492). -/
def State.keeperOver (s : State) (found : Tested) : State :=
  if s.board.stage == .keeper && s.board.keeper.isEmpty && s.mem.hotPkgs.isEmpty then s.exitKeeper found else s

/-- An activation whose turn has come, its copy verified, starts a warm reset (R556). -/
def State.activateNow (s : State) : State :=
  if s.fw.activation.any fun a => a.copied && a.turn.any fun t => t ≤ s.turn.count.toNat then s.warmReset 4 else s

/-- The boundary's steps 3 and 5 to 8, in service. -/
def State.serveBoundary (s : State) : State :=
  if !s.serving then s
  else
    let s := s.powerOffIdle.setGens.stepSeven
    let held := s.heldBack
    let s := s.waitTurns.releasePass held (s.cmds.length + 1)
    s.deadlines

/-- Step 4: changes, the governor, and what else takes effect at a boundary. -/
def State.stepFour (s : State) (found : Tested) : State :=
  let s := (s.changesOf .four).growLists.droopOffsets.expireKeys
  let s := s.govStep.keeperOver found
  if s.serving then s.colls.foldl (fun s k => s.boundaryColl k.1) s.boundaryGens.collStallCount else s

/-- A turn boundary (R39): steps 1 to 8 in their order. Outside service only steps 1, 2 and 4 act. -/
def State.boundary (s : State) (n : BitVec 64) (e : EnergyIn) (found : Tested) (upsets : List Upset) : State :=
  let old := s.turn.count
  let ticks := s.turn.phase.toNat
  let first := s.turn.awaitsFirst
  let byCtx := s.ev.throttledCtx
  let byDev := s.ev.throttledDev
  let s := (s.newTurn.stepOne n).reportThrottled byCtx byDev
  let t := s
  let s := if s.powered then upsets.foldl State.applyUpset s else s
  let s := (s.readMeters e).countWaits e
  let s := if first then s else s.closeEnergy e old ticks
  let s := if s.powered then s.countTurns else s
  let s := if s.serving then s.sealStep else s
  let s := (s.stepFour found).activateNow
  s.serveBoundary.onlyHold t

/-- TURN_BOUNDARY (R39 to R41). -/
def execTurnBoundary (e : EnergyIn) (found : Tested) (upsets : List Upset) (s : State) : Host.Outcome State Fault Refusal :=
  match s.dueTurn with
  | none => idle s
  | some n => whenTurn (s.board.domains.getLsbD 3 && s.board.stage != .recovery) s fun s => s.boundary n e found upsets

end Sys2Proof.Machine
end

