-- ==== Sys2Proof/Machine/ControlCore.lean ====
section
/-! DEFINITION. The control-core instructions (R210 to R214, R227, R232, R237). -/

namespace Sys2Proof.Machine

/-! ## Arithmetic -/

/-- An instruction that writes rd and goes on. -/
def State.result (s : State) (c : Nat) (w : Word) (v : Word) : State := (s.setReg c (fRd w) v).advance c

/-- A format R instruction: rd = f ra rb. -/
def aluR (op : Nat) (f : Word → Word → Word) (c : Nat) (w : Word) (s : State) : Host.Outcome State Fault Refusal :=
  control op resR [fRa w, fRb w] (fun s => s.result c w (f (s.reg c (fRa w)) (s.reg c (fRb w)))) c w s

/-- A format I instruction: rd = f ra imm; `res` holds further reserved bits of imm. -/
def aluI (op res : Nat) (f : Word → Word) (c : Nat) (w : Word) (s : State) : Host.Outcome State Fault Refusal :=
  control op (resI ||| res) [fRa w] (fun s => s.result c w (f (s.reg c (fRa w)))) c w s

/-- The high half of the unsigned product (R210). -/
def mulhuW (a b : Word) : Word := BitVec.ofNat 64 (a.toNat * b.toNat / 2 ^ 64)

/-- The high half of the signed product (R210). -/
def mulhsW (a b : Word) : Word := wordOf ((a.toInt * b.toInt) / (2 ^ 64 : Nat))

/-- DIVU (R211). -/
def divuW (a b : Word) : Word := if b = 0 then BitVec.allOnes 64 else BitVec.ofNat 64 (a.toNat / b.toNat)

/-- REMU (R211). -/
def remuW (a b : Word) : Word := if b = 0 then a else BitVec.ofNat 64 (a.toNat % b.toNat)

/-- DIVS (R211): truncating; −2^63 ÷ −1 wraps to −2^63. -/
def divsW (a b : Word) : Word := if b = 0 then BitVec.allOnes 64 else wordOf (quotT a.toInt b.toInt)

/-- REMS (R211): the sign of the dividend. -/
def remsW (a b : Word) : Word := if b = 0 then a else wordOf (remT a.toInt b.toInt)

/-- A comparison's result. -/
def flagW (b : Bool) : Word := if b then 1 else 0

/-- The shift amount of R210. -/
def shamt (b : Word) : Nat := b.toNat % 64

/-- ADD (R210). -/
def execAdd (c : Nat) (w : Word) (s : State) : Host.Outcome State Fault Refusal := aluR 0x01 (fun a b => a + b) c w s
/-- SUB (R210). -/
def execSub (c : Nat) (w : Word) (s : State) : Host.Outcome State Fault Refusal := aluR 0x02 (fun a b => a - b) c w s
/-- MUL (R210). -/
def execMul (c : Nat) (w : Word) (s : State) : Host.Outcome State Fault Refusal := aluR 0x03 (fun a b => a * b) c w s
/-- MULHU (R210). -/
def execMulhu (c : Nat) (w : Word) (s : State) : Host.Outcome State Fault Refusal := aluR 0x04 mulhuW c w s
/-- MULHS (R210). -/
def execMulhs (c : Nat) (w : Word) (s : State) : Host.Outcome State Fault Refusal := aluR 0x05 mulhsW c w s
/-- DIVU (R211). -/
def execDivu (c : Nat) (w : Word) (s : State) : Host.Outcome State Fault Refusal := aluR 0x06 divuW c w s
/-- DIVS (R211). -/
def execDivs (c : Nat) (w : Word) (s : State) : Host.Outcome State Fault Refusal := aluR 0x07 divsW c w s
/-- REMU (R211). -/
def execRemu (c : Nat) (w : Word) (s : State) : Host.Outcome State Fault Refusal := aluR 0x08 remuW c w s
/-- REMS (R211). -/
def execRems (c : Nat) (w : Word) (s : State) : Host.Outcome State Fault Refusal := aluR 0x09 remsW c w s
/-- AND (R210). -/
def execAnd (c : Nat) (w : Word) (s : State) : Host.Outcome State Fault Refusal := aluR 0x0A (fun a b => a &&& b) c w s
/-- OR (R210). -/
def execOr (c : Nat) (w : Word) (s : State) : Host.Outcome State Fault Refusal := aluR 0x0B (fun a b => a ||| b) c w s
/-- XOR (R210). -/
def execXor (c : Nat) (w : Word) (s : State) : Host.Outcome State Fault Refusal := aluR 0x0C (fun a b => a ^^^ b) c w s
/-- SHL (R210). -/
def execShl (c : Nat) (w : Word) (s : State) : Host.Outcome State Fault Refusal :=
  aluR 0x0D (fun a b => a <<< shamt b) c w s
/-- SHR (R210). -/
def execShr (c : Nat) (w : Word) (s : State) : Host.Outcome State Fault Refusal :=
  aluR 0x0E (fun a b => a >>> shamt b) c w s
/-- SAR (R210). -/
def execSar (c : Nat) (w : Word) (s : State) : Host.Outcome State Fault Refusal :=
  aluR 0x0F (fun a b => a.sshiftRight (shamt b)) c w s
/-- ROTL (R210). -/
def execRotl (c : Nat) (w : Word) (s : State) : Host.Outcome State Fault Refusal :=
  aluR 0x10 (fun a b => a.rotateLeft (shamt b)) c w s
/-- SLTU (R210). -/
def execSltu (c : Nat) (w : Word) (s : State) : Host.Outcome State Fault Refusal :=
  aluR 0x11 (fun a b => flagW (a.ult b)) c w s
/-- SLTS (R210). -/
def execSlts (c : Nat) (w : Word) (s : State) : Host.Outcome State Fault Refusal :=
  aluR 0x12 (fun a b => flagW (a.slt b)) c w s
/-- ADDI (R210). -/
def execAddi (c : Nat) (w : Word) (s : State) : Host.Outcome State Fault Refusal :=
  aluI 0x21 0 (fun a => a + fSimm w) c w s
/-- ANDI (R210): zero-extended. -/
def execAndi (c : Nat) (w : Word) (s : State) : Host.Outcome State Fault Refusal :=
  aluI 0x2A 0 (fun a => a &&& fImm w) c w s
/-- ORI (R210). -/
def execOri (c : Nat) (w : Word) (s : State) : Host.Outcome State Fault Refusal :=
  aluI 0x2B 0 (fun a => a ||| fImm w) c w s
/-- XORI (R210). -/
def execXori (c : Nat) (w : Word) (s : State) : Host.Outcome State Fault Refusal :=
  aluI 0x2C 0 (fun a => a ^^^ fImm w) c w s
/-- SHLI (R210): imm[31:6] reserved. -/
def execShli (c : Nat) (w : Word) (s : State) : Host.Outcome State Fault Refusal :=
  aluI 0x2D 0xFFFFFFC0 (fun a => a <<< shamt (fImm w)) c w s
/-- SHRI (R210). -/
def execShri (c : Nat) (w : Word) (s : State) : Host.Outcome State Fault Refusal :=
  aluI 0x2E 0xFFFFFFC0 (fun a => a >>> shamt (fImm w)) c w s
/-- SARI (R210). -/
def execSari (c : Nat) (w : Word) (s : State) : Host.Outcome State Fault Refusal :=
  aluI 0x2F 0xFFFFFFC0 (fun a => a.sshiftRight (shamt (fImm w))) c w s
/-- SLTUI (R210). -/
def execSltui (c : Nat) (w : Word) (s : State) : Host.Outcome State Fault Refusal :=
  aluI 0x31 0 (fun a => flagW (a.ult (fSimm w))) c w s
/-- SLTSI (R210). -/
def execSltsi (c : Nat) (w : Word) (s : State) : Host.Outcome State Fault Refusal :=
  aluI 0x32 0 (fun a => flagW (a.slt (fSimm w))) c w s
/-- SETHI (R210). -/
def execSethi (c : Nat) (w : Word) (s : State) : Host.Outcome State Fault Refusal :=
  aluI 0x38 0 (fun a => BitVec.ofNat 64 (field w 0 32 * 2 ^ 32 + a.toNat % 2 ^ 32)) c w s

/-! ## Branches and jumps -/

/-- PC + 8 × offset, modulo 2^64. -/
def State.jumpBy (s : State) (c : Nat) (off : Int) : State := s.setPc c (BitVec.ofNat 64 (s.pc c) + wordOf (8 * off))

/-- A format B instruction (R210): ra in the place of rd, rb in the place of ra. -/
def branch (op : Nat) (f : Word → Word → Bool) (c : Nat) (w : Word) (s : State) : Host.Outcome State Fault Refusal :=
  control op resB [fRd w, fRa w] (fun s =>
    if f (s.reg c (fRd w)) (s.reg c (fRa w)) then s.jumpBy c (sfield w 0 32) else s.advance c) c w s

/-- BEQ (R210). -/
def execBeq (c : Nat) (w : Word) (s : State) : Host.Outcome State Fault Refusal := branch 0x40 (fun a b => a == b) c w s
/-- BNE (R210). -/
def execBne (c : Nat) (w : Word) (s : State) : Host.Outcome State Fault Refusal := branch 0x41 (fun a b => a != b) c w s
/-- BLTU (R210). -/
def execBltu (c : Nat) (w : Word) (s : State) : Host.Outcome State Fault Refusal := branch 0x42 (fun a b => a.ult b) c w s
/-- BGEU (R210). -/
def execBgeu (c : Nat) (w : Word) (s : State) : Host.Outcome State Fault Refusal := branch 0x43 (fun a b => !a.ult b) c w s
/-- BLTS (R210). -/
def execBlts (c : Nat) (w : Word) (s : State) : Host.Outcome State Fault Refusal := branch 0x44 (fun a b => a.slt b) c w s
/-- BGES (R210). -/
def execBges (c : Nat) (w : Word) (s : State) : Host.Outcome State Fault Refusal := branch 0x45 (fun a b => !a.slt b) c w s

/-- JAL (R210): ra must be s0. -/
def execJal (c : Nat) (w : Word) (s : State) : Host.Outcome State Fault Refusal :=
  control 0x48 (resI ||| 0x1F * 2 ^ 46) [] (fun s =>
    (s.jumpBy c (sfield w 0 32)).setReg c (fRd w) (BitVec.ofNat 64 (s.pc c + 8))) c w s

/-- JALR (R210). -/
def execJalr (c : Nat) (w : Word) (s : State) : Host.Outcome State Fault Refusal :=
  control 0x49 resI [fRa w] (fun s =>
    (s.setPc c (s.reg c (fRa w) + fSimm w)).setReg c (fRd w) (BitVec.ofNat 64 (s.pc c + 8))) c w s

/-! ## Loads and stores (R212) -/

/-- SIZE in bytes. -/
def fSize (w : Word) : Nat := 2 ^ field w 44 2

/-- The effective address: ra plus the sign-extended offset. -/
def State.effAddr (s : State) (c : Nat) (w : Word) : Word := s.reg c (fRa w) + wordOf (sfield w 0 24)

/-- The sluice mode and slot of a narrow access (R212). -/
def fSluice (w : Word) : Sluice := { mode := field w 41 2, count := 1, first := field w 29 12 }

/-- The checks of a narrow scratchpad access: the fault it raises, if any (R130, R212, R215). -/
def State.narrowFault (s : State) (c : Nat) (w : Word) : Option Nat :=
  let a := (s.effAddr c w).toNat
  if 2 ^ 24 ≤ a || !s.inShelves c a 1 || !(fSluice w).inRange (s.shelvesOf c) then some 0x0102
  else if a % fSize w != 0 then some 0x0103
  else none

/-- The value of loaded bytes, sign-extended or zero-extended (R212). -/
def loadValue (sx : Bool) (d : Bytes) : Word :=
  if sx then wordOf (signN (8 * d.length) (ofLe d)) else BitVec.ofNat 64 (ofLe d)

/-- Updates of the control core's slot come after a write-back of the gather buffer (R134, R144). -/
def State.ctlUpdate (s : State) (c : Nat) (u : Sluice) (write : Bool) : State :=
  if 2 ≤ u.mode then (s.writeBackAll c).sluiceUpdate c u write else s

/-- The body of LDS. -/
def bodyLds (c : Nat) (w : Word) (s : State) : State :=
  match s.narrowFault c w with
  | some code => s.ctlFault c code (s.effAddr c w).toNat
  | none =>
    s.sluiceGate c 0x50 w (fSluice w) false fun s =>
      let r := s.narrowLoad c (s.effAddr c w).toNat (fSize w)
      match r.2 with
      | none => r.1.fault c 1 0 0x010A 0x06 false (some (s.pc c)) (s.effAddr c w).toNat []
      | some d => (r.1.ctlUpdate c (fSluice w) false).result c w (loadValue (bitAt w 43) d)

/-- LDS (R212). -/
def execLds (c : Nat) (w : Word) (s : State) : Host.Outcome State Fault Refusal :=
  control 0x50 resM [fRa w] (bodyLds c w) c w s

/-- The body of STS. -/
def bodySts (c : Nat) (w : Word) (s : State) : State :=
  match s.narrowFault c w with
  | some code => s.ctlFault c code (s.effAddr c w).toNat
  | none =>
    s.sluiceGate c 0x51 w (fSluice w) true fun s =>
      ((s.narrowStore c (s.effAddr c w).toNat (toLe (fSize w) (s.reg c (fRd w)).toNat)).ctlUpdate c (fSluice w) true).advance c

/-- STS (R212): the register in the place of rd holds the value. -/
def execSts (c : Nat) (w : Word) (s : State) : Host.Outcome State Fault Refusal :=
  control 0x51 resM [fRa w, fRd w] (bodySts c w) c w s

/-- SMODE and SLOT, which LDM and STM must hold zero (R212). -/
def resNarrowMem : Nat := resM ||| 0x3FFF * 2 ^ 29

/-- LDM (R212): checked at issue; the value arrives with LDM_DATA_RETURN. -/
def execLdm (c : Nat) (w : Word) (s : State) : Host.Outcome State Fault Refusal :=
  control 0x52 resNarrowMem [fRa w] (fun s =>
    let va := (s.effAddr c w).toNat
    match s.ownerOf c with
    | none => s
    | some (x, _) =>
      if 2 ^ 48 ≤ va || va % fSize w != 0 then s.ctlFault c 0x0109 va
      else
        let t := s.walkFor c x 1 va (fSize w)
        match if t.2 then t.1.vread x (some (s.core c).handle) { unit := 1, core := some c } va (fSize w) else none with
        | none => t.1.ctlFault c 0x0109 va
        | some r =>
          let s := r.1
          let d := (t.1.translate x .read false va).getD (0, 0)
          let l : Load := { rd := fRd w, va, size := fSize w, sx := bitAt w 43, dpa := d.1, data := (s.readCw d.2 d.1).1, poison := r.2.2
                            codeOff := s.pc c }
          ((s.setReg c (fRd w) (s.reg c (fRd w))).modCore c fun k => { k with loads := k.loads ++ [l] }).advance c) c w s

/-- STM (R212). -/
def execStm (c : Nat) (w : Word) (s : State) : Host.Outcome State Fault Refusal :=
  control 0x53 resNarrowMem [fRa w, fRd w] (fun s =>
    let va := (s.effAddr c w).toNat
    match s.ownerOf c with
    | none => s
    | some (x, _) =>
      if 2 ^ 48 ≤ va || va % fSize w != 0 then s.ctlFault c 0x0109 va
      else
        let t := s.walkFor c x 1 va (fSize w)
        match if t.2 then t.1.vwrite x (some (s.core c).handle) { unit := 1, core := some c } va (toLe (fSize w) (s.reg c (fRd w)).toNat) false
          else none with
        | none => t.1.ctlFault c 0x0109 va
        | some s => s.advance c) c w s

/-- What an LDM delivers when the codeword that it read carried an error pattern, and what that leaves in memory: a codeword that has been
written since its read stays as it was written (R212, R242, R252 to R254). -/
def State.returnErrors (s : State) (l : Load) (err : List (Nat × Byte)) : State × Bytes × Bool :=
  if err.isEmpty then (s, l.data, l.poison)
  else match rsDecode err with
    | .uncorrectable => (s.applyErrors 1 l.dpa err, l.data, true)
    | .good left corrected =>
      (if Tab.span s.mem.data 0 (l.dpa / 128 * 128) 128 = l.data then s.applyErrors 1 l.dpa err
       else if corrected then s.countCorrected l.dpa else s,
       leftOn (s.mem.tag l.dpa).slot s.fresh left l.data, l.poison || left.any fun e => e.1 == 128)

/-- LDM_DATA_RETURN (R206, R212): the first load waiting for rd ends, with what memory held when it was issued; the codeword may carry errors
(R242, R254). -/
def execLdmDataReturn (c rd : Nat) (err : List (Nat × Byte)) (s : State) : Host.Outcome State Fault Refusal :=
  match (s.core c).owner, findAt (fun (l : Load) => l.rd == rd) (s.core c).loads with
  | some _, some (i, l) =>
    when (s.coreOn c) s fun s =>
      let r := (s.modCore c fun k => { k with loads := k.loads.eraseIdx i }).returnErrors l err
      if r.2.2 then r.1.fault c 1 0 0x010A 0x06 false (some l.codeOff) l.va []
      else r.1.modCore c fun k => if l.rd = 0 then k else
        { k with regs := Tab.put k.regs 0 l.rd (loadValue l.sx ((r.2.1.drop (l.dpa % 128)).take l.size)) }
  | _, _ => idle s

/-! ## Unit registers (R214) -/

/-- A unit register's value; none for a number that R214 does not list. -/
def State.ureg (s : State) (c n : Nat) : Option Word :=
  let k := s.core c
  if n = 0x000 then some (BitVec.ofNat 64 ((k.owner.map fun o => o.2).getD 0))
  else if n = 0x001 then some (BitVec.ofNat 64 k.coreCount)
  else if n = 0x002 then some k.handle
  else if n = 0x003 then some k.karg
  else if n = 0x008 then some s.turn.count
  else if n = 0x009 then some (s.turn.phase.zeroExtend 64)
  else if n = 0x00A then some (Config.freeWord s.fresh)
  else if n = 0x010 then some (k.amask.zeroExtend 64)
  else if n = 0x011 then some (BitVec.ofNat 64 k.awidth)
  else if n = 0x012 then some (BitVec.ofNat 64 k.accFlags)
  else if n = 0x018 then some k.vrange
  else if n = 0x019 then some k.vorg
  else if n = 0x01A then some (BitVec.ofNat 64 k.vflags)
  else if n = 0x020 then some (k.drawKey.truncate 64)
  else if n = 0x021 then some ((k.drawKey >>> 64).truncate 64)
  else if n = 0x022 then some (k.drawStream.zeroExtend 64)
  else if n = 0x028 then some k.trapVec
  else if n = 0x029 then some k.trapPc
  else if n = 0x02A then some k.trapCause
  else if 0x100 ≤ n && n < 0x180 && n % 16 < 12 then
    some (Tab.look (Tab.look k.arrays {} ((n - 0x100) / 16)).counts {} (n % 16)).word
  else none

/-- Clear the bits of a sticky register that are written as one (RW1C of R10). -/
def clearBits (v m : Nat) : Nat := v &&& (255 ^^^ (m % 256))

/-- A write of a unit register (R214); read-only ones ignore it, and reserved bits are not kept (R9, R10). -/
def CoreSt.setUreg (k : CoreSt) (n : Nat) (v : Word) : CoreSt :=
  if n = 0x012 then { k with accFlags := clearBits k.accFlags v.toNat }
  else if n = 0x018 then { k with vrange := v &&& 0x7F3F }
  else if n = 0x019 then { k with vorg := v &&& 0xFFFFFFFFFFFF }
  else if n = 0x01A then { k with vflags := clearBits k.vflags v.toNat }
  else if n = 0x020 then { k with drawKey := (k.drawKey >>> 64) <<< 64 ||| v.zeroExtend 128 }
  else if n = 0x021 then { k with drawKey := (k.drawKey <<< 64) >>> 64 ||| (v.zeroExtend 128) <<< 64 }
  else if n = 0x022 then { k with drawStream := v.truncate 16 }
  else if n = 0x028 then { k with trapVec := v }
  else k

/-- URD (R210, R214): ra must be s0; CYCLES is a free value, since cycles are not modelled (log entry 7). -/
def execUrd (c : Nat) (w : Word) (s : State) : Host.Outcome State Fault Refusal :=
  control 0x60 (resI ||| 0xFFFFF000 ||| 0x1F * 2 ^ 46) [] (fun s =>
    match s.ureg c (field w 0 12) with
    | none => s.illegal c
    | some v => ({ s with fresh := s.fresh + if field w 0 12 = 0x00A then 1 else 0 } : State).result c w v) c w s

/-- UWR (R210, R214): rd must be s0. -/
def execUwr (c : Nat) (w : Word) (s : State) : Host.Outcome State Fault Refusal :=
  control 0x61 (resI ||| 0xFFFFF000 ||| 0x1F * 2 ^ 51) [fRa w] (fun s =>
    match s.ureg c (field w 0 12) with
    | none => s.illegal c
    | some _ => (s.modCore c fun k => k.setUreg (field w 0 12) (s.reg c (fRa w))).advance c) c w s

/-- TURNRD (R210): rd = turn counter, ra = phase; when both name one register, which value it keeps is a free choice (log
entry 8). -/
def execTurnrd (c : Nat) (w : Word) (s : State) : Host.Outcome State Fault Refusal :=
  control 0x62 (resR ||| 0x1F * 2 ^ 41) [] (fun s =>
    let ph := s.turn.phase.zeroExtend 64
    if fRd w = fRa w && Config.freeBool s.fresh then
      (({ s with fresh := s.fresh + 1 } : State).setReg c (fRd w) s.turn.count).advance c
    else
      ((({ s with fresh := s.fresh + if fRd w = fRa w then 1 else 0 } : State).setReg c (fRd w) s.turn.count).setReg c (fRa w)
        ph).advance c) c w s

/-! ## FENCE, EXIT, TRAPRET -/

/-- Does a leat operation in the queue of core c still write memory (R213)? An LMOVE does that names no hopper and whose destination lies
outside the aperture, by its descriptor as it was read or, before it starts, as it stands. -/
def State.leatWrites (s : State) (c : Nat) (o : LeatOp) : Bool :=
  o.kind == 0 && leAt o.block 0x1C 2 == 0 &&
    !inAperture ((o.descs[1]?.getD ((s.peekDescAt (s.agent c 2) (leAt o.block 8 6)))).base)

/-- Are the waits that a FENCE selects done (R213)? Stores to memory are made when they issue. -/
def State.fenced (s : State) (c sel : Nat) : Bool :=
  let k := s.core c
  (!sel.testBit 1 || !(k.leat.any (s.leatWrites c))) &&
    (!sel.testBit 2 || (k.vq.isEmpty && k.leat.isEmpty && k.remotes.isEmpty && k.sums.isEmpty &&
      k.arrays.all fun e => e.2.quiet))

/-- FENCE (R213): it completes when its waits are done, and until then nothing else issues. -/
def execCoreFence (c : Nat) (w : Word) (s : State) : Host.Outcome State Fault Refusal :=
  if s.fenced c (field w 0 3) || (s.fetchFault c).isSome || !clearIn w.toNat (resI ||| 0xFFFFFFF8) then
    control 0x63 (resI ||| 0xFFFFFFF8) [] (fun s =>
      (if bitAt w 0 then s.writeBackAll c else s).advance c) c w s
  else idle s

/-- EXIT (R237): the kernel ends on its core at once when all its operations are complete, or later. -/
def execExitKernel (c : Nat) (w : Word) (s : State) : Host.Outcome State Fault Refusal :=
  control 0x64 resI [] (fun s =>
    if (s.core c).quiet then s.endOnCore c (field w 0 8)
    else s.modCore c fun k => { k with exiting := some (field w 0 8) }) c w s

/-- TRAPRET (R232). -/
def execTrapret (c : Nat) (w : Word) (s : State) : Host.Outcome State Fault Refusal :=
  control 0x65 (resI ||| 0xFFFFFFFE) [] (fun s =>
    if (s.core c).inHandler then
      s.modCore c fun k => { k with inHandler := false, pc := (k.trapPc + if bitAt w 0 then 8 else 0).toNat }
    else s.illegal c) c w s

/-! ## Sluice instructions (R227) -/

/-- The logical slot ra + SLOT. -/
def State.slotNo (s : State) (c : Nat) (w : Word) : Nat := (s.reg c (fRa w) + BitVec.ofNat 64 (field w 0 12)).toNat

/-- The slot must lie below 16 × S, or the instruction faults (R227); the gather buffer is written back first (R134). -/
def State.onSlot (s : State) (c : Nat) (w : Word) (go : State → Nat → State) : State :=
  let n := s.slotNo c w
  if 16 * s.shelvesOf c ≤ n then s.ctlFault c 0x0102 n else go (s.writeBackAll c) n

/-- The body of SARM. -/
def bodySarm (c : Nat) (w : Word) (s : State) : State :=
  if field w 40 4 = 0 || field w 36 4 = 0 then s.ctlFault c 0x0105 (s.slotNo c w)
  else s.onSlot c w fun s n => (s.modLcoreOf c fun l => l.armSlot n (field w 40 4) (field w 36 4)).advance c

/-- SARM (R227): arms the slot with F and D; either of them zero faults with SLUICE_ARM. -/
def execSarm (c : Nat) (w : Word) (s : State) : Host.Outcome State Fault Refusal :=
  control 0x70 (resS ||| 0x1F * 2 ^ 51 ||| 3 * 2 ^ 44) [fRa w] (bodySarm c w) c w s

/-- SFILL and SDRAIN: an update of the slot by the control core, waiting or faulting as TRY says. -/
def bodyUpdate (op : Nat) (write : Bool) (c : Nat) (w : Word) (s : State) : State :=
  s.onSlot c w fun s n =>
    let u : Sluice := { mode := if bitAt w 45 then 3 else 2, count := 1, first := n }
    s.sluiceGate c op w u write fun s => (s.sluiceUpdate c u write).advance c

/-- SFILL (R227). -/
def execSfill (c : Nat) (w : Word) (s : State) : Host.Outcome State Fault Refusal :=
  control 0x71 (resS ||| 0x1F * 2 ^ 51 ||| 0x1FF * 2 ^ 36) [fRa w] (bodyUpdate 0x71 true c w) c w s

/-- SDRAIN (R227). -/
def execSdrain (c : Nat) (w : Word) (s : State) : Host.Outcome State Fault Refusal :=
  control 0x72 (resS ||| 0x1F * 2 ^ 51 ||| 0x1FF * 2 ^ 36) [fRa w] (bodyUpdate 0x72 false c w) c w s

/-- SWAIT waits for FULL (WANT = 1) or EMPTY (WANT = 0) and updates nothing. -/
def bodySwait (c : Nat) (w : Word) (s : State) : State :=
  s.onSlot c w fun s n =>
    let u : Sluice := { mode := if bitAt w 45 then 3 else 1, count := 1, first := n }
    s.sluiceGate c 0x73 w u (!bitAt w 44) fun s => s.advance c

/-- SWAIT (R227). -/
def execSwait (c : Nat) (w : Word) (s : State) : Host.Outcome State Fault Refusal :=
  control 0x73 (resS ||| 0x1F * 2 ^ 51 ||| 0xFF * 2 ^ 36) [fRa w] (bodySwait c w) c w s

/-- SPOLL (R227). -/
def execSpoll (c : Nat) (w : Word) (s : State) : Host.Outcome State Fault Refusal :=
  control 0x74 (resS ||| 0x3FF * 2 ^ 36) [fRa w] (fun s =>
    s.onSlot c w fun s n => s.result c w (BitVec.ofNat 64 ((s.lcoreOf c).slot n).word)) c w s

end Sys2Proof.Machine
end

