-- ==== Sys2Proof/Machine/Host.lean ====
section
/-! DEFINITION. The rows of the host link: training, configuration space, doorbells, the CXL.mem window, interrupts, and the answers to
misbehaving partners (R308 to R325, R353, R552). -/

namespace Sys2Proof.Machine

/-! ## The link (R308, R309) -/

/-- The service that a trained width and rate give (R308). -/
def linkService (width rate : Nat) : LinkState := if 4 ≤ width && 32 ≤ rate then .full else .ioOnly

/-- HOST_LINK_TRAINED (R308, R309): width in lanes and rate in GT/s. A link that cannot train in 256-byte flit mode fails. After a link down,
training to full service is HOST_LINK_RETRAIN; training to less keeps completion writes held, and a failure lets the 100 ms run on
(R324; log entry 133). -/
def execHostLinkTrained (flit256 : Bool) (width rate : Nat) (s : State) : Host.Outcome State Fault Refusal :=
  let counting := s.board.linkDownCount
  when (s.mgmtUp && s.board.stage != .tripped && !s.board.resetAsserted && !s.linkUp &&
      !(counting && flit256 && linkService width rate == .full) && !s.board.faulted.contains 1) s fun s =>
    if !flit256 then ({ s with host := { s.host with link := .failed } } : State).raise { code := 0x0602, unit := 9 }
    else
      let s : State := { s with
        host := { s.host with link := linkService width rate, width, rate, holdCpl := s.host.holdCpl && counting }
        board := { s.board with linkDownCount := false } }
      if linkService width rate = .ioOnly then s.raise { code := 0x0601, unit := 9 } else s

/-- Does a function exist now: F0, or an enabled VF (R310)? -/
def State.functionOn (s : State) (f : Nat) : Bool := f == 0 || f ≤ s.host.vfs

/-- Does the link carry CXL.io requests that are not configuration requests (R323)? -/
def State.ioOpen (s : State) : Bool := s.linkUp && s.host.ide != .insecure

/-- Are CXL.cache and CXL.mem open (R309, R323)? -/
def State.cacheMemOpen (s : State) : Bool := s.host.link == .full && s.host.ide != .insecure

/-- Report an error through AER: its status bit, and for an advisory one the advisory bit, 13, of the correctable status (R325; log entry
31). -/
def State.aerReport (s : State) (f bit : Nat) (advisory : Bool) : State :=
  ({ s with host := { s.host with
    aerUnc := addNew (32 * f + bit) s.host.aerUnc
    aerCor := if advisory then addNew (32 * f + 13) s.host.aerCor else s.host.aerCor } } : State).emit (.aer f bit)

/-- A request that no function or register answers: Unsupported Request, an advisory error of AER (R325). One that reaches no function that
exists is reported by F0 (log entry 31). -/
def State.unsupported (s : State) (f : Nat) : State := ((s.bumpLink 1).emit .unsupported).aerReport f 20 true

/-! ## Configuration space (R310, R319, R552)

The spec names the registers of configuration space by the standards that define them and gives no offsets, so those that this model acts
on are numbered above the 4 KiB space (log entry 31). -/

/-- The sizes of BAR0, BAR2 and BAR4 of F0 (R311). -/
def barSize (n : Nat) : Nat := if n = 0 then 2 ^ 24 else if n = 2 then 2 ^ 20 else 2 ^ 16

/-- The status bits of a function among keys 32 × function + bit. -/
def statusOf (l : List Nat) (f : Nat) : Nat := ofBits ((List.range 32).filter fun b => l.contains (32 * f + b))

/-- Registers of configuration space. At PCI's own offsets: 0 identity, 4 memory space enable, 8 class code, 0x10, 0x18 and 0x20 the BARs of F0.
Numbered by this model: 0x1000 CXL.cache enable, 0x1001 ATS enable, 0x1002 number of VFs enabled, 0x1003 CXL.mem window size in GiB, 0x1004
Memory_Info_Valid, Memory_Active and Memory_Active_Timeout (code 2, 16 s), 0x1005 First VF Offset, 0x1006 VF Stride, 0x1007 number of VFs,
0x1008 VF BAR0, 0x1009 VF memory space enable, 0x100A CXL.mem enable, 0x100B and 0x100C AER uncorrectable and correctable status, 0x100D MSI-X
message control. Others are the standards'. -/
def State.configValue (s : State) (f off : Nat) : Option Word :=
  let h := s.host
  let n : Nat → Option Word := fun v => some (BitVec.ofNat 64 v)
  let b : Bool → Nat := fun b => if b then 1 else 0
  let own : Nat → Option Word := fun v => n (if f = 0 then v else 0)
  match off with
  | 0x000 => n (Config.vendor.toNat + 0x10000 * if f = 0 then 0x4800 else 0x4801)
  | 0x004 => own (2 * b h.memOn)
  | 0x008 => n 0x12000000
  | 0x010 => own (Tab.look h.bars 0 0 + 4)
  | 0x018 => own (Tab.look h.bars 0 2 + 4)
  | 0x020 => own (Tab.look h.bars 0 4 + 4)
  | 0x1000 => n (b h.cache)
  | 0x1001 => n (b (h.ats.contains f))
  | 0x1002 => n h.vfs
  | 0x1003 => n s.params.cxlMem
  | 0x1004 => n (2 ^ 14 + 2 * b (s.board.stage == .ready) + 1)
  | 0x1005 => n 1
  | 0x1006 => n 1
  | 0x1007 => n 63
  | 0x1008 => n (h.vfBar + 4)
  | 0x1009 => n (b h.vfMem)
  | 0x100A => n (b h.memEnable)
  | 0x100B => n (statusOf h.aerUnc f)
  | 0x100C => n (statusOf h.aerCor f)
  | 0x100D => n (2 ^ 15 * b (h.msixOn.contains f) + 2 ^ 14 * b (h.msixMask.contains f) + (vectors f - 1))
  | _ => none

/-- A read of configuration space. -/
def State.configRead (s : State) (f off : Nat) : State :=
  match s.configValue f off with
  | some v => s.emit (.value v)
  | none => ({ s with fresh := s.fresh + 1 } : State).emit (.value (Config.freeWord s.fresh))

/-- Add a function to a list, or take it out. -/
def member (on : Bool) (f : Nat) (l : List Nat) : List Nat := if on then addNew f l else l.filter (· != f)

/-- Writing ones clears status bits. -/
def clearStatus (l : List Nat) (f : Nat) (v : Word) : List Nat := l.filter fun k => !(k / 32 == f && bitAt v (k % 32))

/-- A write to configuration space. Disabling ATS drops the function's cached translations; CXL.cache and CXL.mem are not enabled on a link
without full service (R309); the message control lets pending messages go. -/
def State.configWrite (s : State) (f off : Nat) (v : Word) : State :=
  let h := s.host
  let put : HostLink → State := fun h => { s with host := h }
  let bar : Nat → State := fun n => put { h with bars := Tab.put h.bars 0 n (v.toNat / barSize n * barSize n) }
  if off = 0x1001 then
    (if bitAt v 0 then put { h with ats := addNew f h.ats }
     else put { h with ats := h.ats.filter (· != f), atc := h.atc.filter fun e => e.1 != f })
  else if off = 0x100B then put { h with aerUnc := clearStatus h.aerUnc f v }
  else if off = 0x100C then put { h with aerCor := clearStatus h.aerCor f v }
  else if off = 0x100D then
    (put { h with msixOn := member (bitAt v 15) f h.msixOn, msixMask := member (bitAt v 14) f h.msixMask }).sendPending f
  else if f != 0 then s
  else match off with
    | 0x004 => put { h with memOn := bitAt v 1 }
    | 0x010 => bar 0
    | 0x018 => bar 2
    | 0x020 => bar 4
    | 0x1000 => put { h with cache := bitAt v 0 && h.link == .full }
    | 0x1002 => put { h with vfs := min v.toNat 63 }
    | 0x1008 => put { h with vfBar := v.toNat / 2 ^ 16 * 2 ^ 16 }
    | 0x1009 => put { h with vfMem := bitAt v 0 }
    | 0x100A => put { h with memEnable := bitAt v 0 && h.link == .full }
    | _ => s

/-- CONFIG_REQUEST (R552): Request Retry Status until configuration space is loaded, which happens at a time that the spec leaves open
(log entry 32). -/
def execConfigRequest (f off : Nat) (write : Option Word) (s : State) : Host.Outcome State Fault Refusal :=
  when s.linkUp s fun s =>
    let loaded := s.host.config || Config.freeBool s.fresh
    let s : State := if s.host.config then s else { s with fresh := s.fresh + 1, host := { s.host with config := loaded } }
    if !loaded then s.emit .retryStatus
    else if !s.functionOn f then s.unsupported 0
    else match write with
      | none => s.configRead f off
      | some v => (s.configWrite f off v).emit (.data [] false)

/-! ## Doorbells (R312 to R314, R354) -/

/-- Act on a word for a ring; a ring that it resumes writes its held records first (R354). -/
def State.ringWord (s : State) (id : RingId) (v : Word) : State :=
  let was := (s.ring id).any fun r => r.stopped
  let s := s.doorbell id v
  match s.ring id with
  | some r => if was && !r.stopped && s.hostWrites then flushRing id r.ready.length s else s
  | none => s

/-- The ring that an offset of the doorbell area names (R314). -/
def doorbellRing (off : Nat) : RingId := .ctx (off / 8 / 16) (off / 8 % 16)

/-- Does a function's write to a doorbell reach a ring: one aligned 8-byte write, to a ring in MMIO mode of a context that it owns (R314)? -/
def State.doorbellTaken (s : State) (f off size : Nat) : Bool :=
  size == 8 && off % 8 == 0 && (s.ctx (off / 8 / 16)).st != .closed && (s.ctx (off / 8 / 16)).req.func == f &&
    (s.ring (doorbellRing off)).any fun r => r.mmio && r.enabled

/-- What a read of a doorbell returns: the last value accepted, or zero; a function reads no other function's doorbells (R311, R314). -/
def State.doorbellRead (s : State) (f off : Nat) : Word :=
  match s.ring (doorbellRing off) with
  | some r => if r.mmio && (s.ctx (off / 8 / 16)).st != .closed && (s.ctx (off / 8 / 16)).req.func == f then r.word else 0
  | none => 0

/-! ## BARs (R311, R325, R472) -/

/-- What a memory request reaches: the setup registers, a function's doorbell area with its MSI-X table and pending bits, or the component
registers. -/
inductive BarArea where
  | setup
  | area (f : Nat)
  | component
  deriving DecidableEq, Repr

/-- The BAR that an address lies in, and the offset there; VF n has its BAR0 at the base plus (n − 1) × 64 KiB (R311). -/
def State.barAt (s : State) (a : Nat) : Option (BarArea × Nat) :=
  let h := s.host
  let base := Tab.look h.bars 0
  let within : Nat → Bool := fun n => h.memOn && base n ≤ a && a < base n + barSize n
  if within 0 then some (.setup, a - base 0)
  else if within 2 then some (.area 0, a - base 2)
  else if within 4 then some (.component, a - base 4)
  else if h.vfMem && h.vfBar ≤ a && a < h.vfBar + 63 * 2 ^ 16 then some (.area ((a - h.vfBar) / 2 ^ 16 + 1), (a - h.vfBar) % 2 ^ 16)
  else none

/-- Offsets of the MSI-X table and of the pending-bit array (R311). -/
def tableOff (f : Nat) : Nat := if f = 0 then 0x80000 else 0x8000
/-- See `tableOff`. -/
def pbaOff (f : Nat) : Nat := if f = 0 then 0x90000 else 0xC000

/-- A byte of a 64-bit register. -/
def byteOfWord (w : Word) (i : Nat) : Byte := BitVec.ofNat 8 (field w (8 * i) 8)

/-- Byte b of an MSI-X table entry: address, data, and the vector control, whose bit 0 masks the vector. -/
def State.entryByte (s : State) (f v b : Nat) : Byte :=
  let key := 2048 * f + v
  if b < 12 then Tab.look s.host.msixTable 0 (16 * key + b)
  else if b = 12 && !s.host.unmasked.contains key then 1 else 0

/-- A byte of a function's doorbell area, MSI-X table, pending bits or, for a VF, event-queue registers; none where nothing is implemented. -/
def State.areaByte (s : State) (f off : Nat) : Option Byte :=
  let t := tableOff f
  let p := pbaOff f
  let q := Tab.look s.ev.queues {} f
  if off < 0x8000 then some (byteOfWord (s.doorbellRead f (off / 8 * 8)) (off % 8))
  else if t ≤ off && off < t + 16 * vectors f then some (s.entryByte f ((off - t) / 16) ((off - t) % 16))
  else if p ≤ off && off < p + vectors f / 8 then
    some (BitVec.ofNat 8 (ofBits ((List.range 8).filter fun i => s.host.pendingMsix.contains (2048 * f + 8 * (off - p) + i))))
  else if f != 0 && 0xF000 ≤ off && off < 0xF018 then
    some (byteOfWord (if off < 0xF008 then q.base else if off < 0xF010 then BitVec.ofNat 64 q.head.toNat else q.dropped.word) (off % 8))
  else none

/-- A read of a function's area: Unsupported Request where a byte of it is not implemented (R325). -/
def State.areaRead (s : State) (f off size : Nat) : State :=
  match (List.range size).mapM fun i => s.areaByte f (off + i) with
  | some b => s.emit (.value (BitVec.ofNat 64 (leAt b 0 8)))
  | none => s.unsupported f

/-- A write into the MSI-X table, 4 or 8 aligned bytes at offset o of it: the address and data of an entry, and its mask bit. A vector that may
now send sends its pending message (R353). -/
def State.msixWrite (s : State) (f o size : Nat) (v : Word) : State :=
  let key := 2048 * f + o / 16
  let b := o % 16
  let h := s.host
  let t := Tab.fill h.msixTable 0 (16 * key + b) ((toLe size v.toNat).take (12 - b))
  let control : Option Bool := if b = 12 then some (bitAt v 0) else if b = 8 && size = 8 then some (bitAt v 32) else none
  ({ s with host := { h with msixTable := t, unmasked := control.elim h.unmasked fun m => member (!m) key h.unmasked } } : State).sendIfPending
    f (o / 16)

/-- A write to a function's area: a doorbell, or an entry of the MSI-X table; pending bits are read-only, and a VF's event-queue registers have
rows of their own. -/
def State.areaWrite (s : State) (f off size : Nat) (v : Word) : State :=
  let t := tableOff f
  if off < 0x8000 then
    (if s.doorbellTaken f off size then s.ringWord (doorbellRing off) v else s.bumpRing (doorbellRing off) 3 1)
  else if t ≤ off && off < t + 16 * vectors f then
    (if (size = 4 || size = 8) && off % size = 0 then s.msixWrite f (off - t) size v else s)
  else if (s.areaByte f off).isSome then s
  else s.unsupported f

/-- A read of a component register: the HDM decoder's base and its control, whose bit 10 shows that it is committed; others are the standard's
(log entry 31). -/
def State.componentRead (s : State) (off : Nat) : State :=
  if off = 0x1010 then s.emit (.value (BitVec.ofNat 64 s.host.hdmBase))
  else if off = 0x1020 then s.emit (.value (if s.host.hdmOn then 0x600 else 0))
  else ({ s with fresh := s.fresh + 1 } : State).emit (.value (Config.freeWord s.fresh))

/-- A write of a component register: the decoder's base, in steps of 256 MiB while it is not committed, and its commit bit. -/
def State.componentWrite (s : State) (off : Nat) (v : Word) : State :=
  if off = 0x1010 && !s.host.hdmOn then { s with host := { s.host with hdmBase := v.toNat / 2 ^ 28 * 2 ^ 28 } }
  else if off = 0x1020 then { s with host := { s.host with hdmOn := bitAt v 9 } }
  else s

/-- RING_RESUME (R354): a doorbell word with RESUME = 1 for a stopped ring. -/
def execRingResume (r : RingId) (v : Word) (s : State) : Host.Outcome State Fault Refusal :=
  when (s.ringService && bitAt v 63 && (s.ring r).any fun q => q.stopped) s fun s => s.ringWord r v

/-- The snoops of a line within the last millisecond that found the word unchanged, with one more (R313). -/
def Ring.noteSnoop (r : Ring) (now : Nat) (v : Word) : List Nat :=
  if v = r.seen then (r.snoops.filter fun t => now < t + ticksMs) ++ [now] else []

/-- Act on the value of a coherent doorbell line that a snoop took: after 64 snoops without a change the line is held no more (R312,
R313). -/
def State.snooped (s : State) (id : RingId) (r : Ring) (v : Word) : State :=
  let l := r.noteSnoop s.now v
  if l.length < 64 then
    (((s.noteAts r.func r.dbAddr).modRing id fun r => { r with snoops := l, seen := v }).emit (.rdShared id)).ringWord id v
  else
    let s := (s.modRing id fun r => { r with snoops := [], seen := v, lineHeld := false, degraded := true }).hostAsk r.func r.dbAddr 8 false true
    let s := match id with
      | .ctx x n => s.raise { code := 0x0603, ctx := some x, unit := 9, detail := [n] }
      | .admin => s.raise { code := 0x0603, unit := 9, detail := [0xFF] }
    s.ringWord id v

/-- DOORBELL_SNOOP (R312): the snoop is answered, and the line read again unless no ring may be served. -/
def execDoorbellSnoop (r : RingId) (v : Word) (s : State) : Host.Outcome State Fault Refusal :=
  match s.ring r with
  | none => idle s
  | some q =>
    when (s.cacheMemOpen && !q.mmio && q.lineHeld) s fun s =>
      let s := s.emit (.snoopResponse true)
      if s.host.viral then s.modRing r fun q => { q with lineHeld := false } else s.snooped r q v

/-- DOORBELL_POLL (R313): the 10 µs read of a degraded line, by RdCurr. -/
def execDoorbellPoll (r : RingId) (v : Word) (s : State) : Host.Outcome State Fault Refusal :=
  match s.ring r with
  | none => idle s
  | some q => when (s.cacheMemOpen && !s.host.viral && !q.mmio && q.degraded) s fun s =>
      ((s.modRing r fun q => { q with seen := v }).hostAsk q.func q.dbAddr 8 false true).ringWord r v

/-- SNOOP_INVALID (R316): a line that no coherent ring of the function holds. -/
def execSnoopInvalid (f addr : Nat) (s : State) : Host.Outcome State Fault Refusal :=
  when (s.cacheMemOpen && !(s.rings.any fun e => !e.2.mmio && e.2.lineHeld && e.2.func == f && e.2.dbAddr / 64 == addr / 64)) s fun s =>
    s.emit (.snoopResponse false)

/-- ATS_INVALIDATION (R315): no translation of the range is used after its completion. -/
def execAtsInvalidation (f addr len : Nat) (s : State) : Host.Outcome State Fault Refusal :=
  when (s.ioOpen && s.host.ats.contains f) s fun s =>
    let hit : Nat × Nat → Bool := fun e => e.1 == f && addr < (e.2 + 1) * 4096 && e.2 * 4096 < addr + len
    ({ s with host := { s.host with atc := s.host.atc.filter fun e => !hit e } } : State).emit (.atsDone f)

/-! ## The CXL.mem window (R319 to R322) -/

/-- WINDOW_DENIED, once for each kind and frame in a turn (R321). Kinds: 0 outside the window, 1 unmapped, 2 read-only, 3 the key slot, 4
keeper mode; 8 is added for a write. -/
def State.denyWindow (s : State) (kind f : Nat) : State :=
  if (kind, f) ∈ s.host.denied then s
  else ({ s with host := { s.host with denied := s.host.denied ++ [(kind, f)] } } : State).raise { code := 0x0604, unit := 9, detail := [f] }

/-- Is a frame read-only for the host: by its entry, or because it maps pages of a context or a collection (R320; log entry 33)? -/
def State.frameReadOnly (s : State) (f : Nat) : Bool :=
  let e := Tab.look s.host.frames 0 f
  bitAt e 62 || s.mem.pages.any fun p => field e 0 13 * 512 ≤ p.1 && p.1 < field e 0 13 * 512 + 512

/-- Count a window access that the key slot turns away (R245, R263): the counters of the channel and of the context are kept, and
WINDOW_DENIED takes the place of MEM_KEY_MISMATCH. -/
def State.windowMismatch (s : State) (dpa : Nat) : State :=
  (s.bumpChannel (s.channelOf dpa) 3 1).bumpOwner dpa 32

/-- Track a line that the host may now cache: the line tracked longest gives way when the filter is full (R322). -/
def State.trackLine (s : State) (line : Nat) : State :=
  if line ∈ s.host.snoop then s
  else if s.host.snoop.length < 2 ^ 20 then { s with host := { s.host with snoop := s.host.snoop ++ [line] } }
  else
    let old := s.host.snoop.headD 0
    ({ s with host := { s.host with snoop := s.host.snoop.drop 1 ++ [line] } } : State).emit (.invalidate old)

/-- A window access stays in one 64-byte line. -/
def inLine (h len : Nat) : Bool := 0 < len && h % 64 + len ≤ 64

/-- CXL_MEM_READ (R321, R322, R325): `err` is the error pattern of the codeword as stored. -/
def execCxlMemRead (a len : Nat) (err : List (Nat × Byte)) (s : State) : Host.Outcome State Fault Refusal :=
  when (s.cacheMemOpen && inLine a len) s fun s =>
    let ones : Bytes := List.replicate len 0xFF
    let w := s.windowAt a
    match w.2 with
    | .inl kind =>
      let s := if kind = 0 then s.bumpLink 7 else s
      (s.denyWindow kind w.1).emit (.data ones true)
    | .inr dpa =>
      let s := (s.upset dpa err).settleCw 9 dpa
      let s := (s.bumpChannel (s.channelOf dpa) 7 1).trackLine (dpa / 64)
      let r := s.mem.readCw 0 dpa
      let s := if r.2.2 then (s.windowMismatch dpa).denyWindow 3 w.1 else s
      let s := if r.2.1 then (s.bumpChannel (s.channelOf dpa) 2 1).foundPoison dpa else s
      s.emit (.data ((r.1.drop (dpa % 128)).take len) r.2.1)

/-- CXL_MEM_WRITE (R321, R325). After a viral indication no write is made. -/
def execCxlMemWrite (a : Nat) (d : Bytes) (s : State) : Host.Outcome State Fault Refusal :=
  when (s.cacheMemOpen && inLine a d.length) s fun s =>
    let w := s.windowAt a
    if s.host.viral then s
    else match w.2 with
    | .inl kind =>
      let s := if kind = 0 then s.bumpLink 7 else s
      s.denyWindow (kind + 8) w.1
    | .inr dpa =>
      if s.frameReadOnly w.1 then s.denyWindow 10 w.1
      else
        let s := (s.bumpChannel (s.channelOf dpa) 7 1).settleCw 9 dpa
        let r := s.mem.writeCw 0 dpa d false
        if r.2 then (s.windowMismatch dpa).denyWindow 11 w.1 else { s with mem := r.1 }

/-! ## Failing accesses (R325) -/

/-- HOST_PROTOCOL, with the count of its case. -/
def State.hostProtocol (s : State) (row : Nat) : State := (s.bumpLink row).raise { code := 0x0606, unit := 9 }

/-- Is the access that fails one that the Volud has outstanding? -/
def State.hostAccess (s : State) : HostAccess → Bool
  | .descriptor r => s.canFetch r || (s.ring r).any fun q => q.enabled && !q.stopped && q.retrying
  | .completion r => (s.ring r).any fun q => !q.ready.isEmpty && !q.stopped && q.room
  | .shard h i => (s.loadRun h).isSome && s.shardDue h i
  | .manifest h => (s.loadRun h).any fun l => !l.manifestDone
  | .line _ _ _ => true

/-- A read of a line of host memory has failed: its data are taken as poisoned, by whatever reads the slower tier there (R325; log entry 134). -/
def State.poisonLine (s : State) (f a : Nat) : State :=
  { s with mem := { s.mem with tags := Tab.put s.mem.tags {} ((tierBase + hostKey f a) / 128) { poison := true } } }

/-- A write of a line of host memory is lost: what the line then holds is not known (R325; log entry 134). -/
def State.loseLine (s : State) (f a : Nat) : State :=
  { s with
    fresh := s.fresh + 64
    hostMem := Tab.fill s.hostMem 0 (hostKey f (a / 64 * 64)) ((List.range 64).map fun i => Config.freeByte (s.fresh + i)) }

/-- What a failed access does to its user: a ring read is retried once and then stops its ring, a completion write stops it, a source is
unreadable (R277, R325, R354). -/
def State.accessFails (s : State) : HostAccess → State
  | .descriptor r =>
    if (s.ring r).any fun q => q.retrying then s.stopRing r 0 else s.modRing r fun q => { q with retrying := true }
  | .completion r => s.stopRing r 1
  | .shard h i => match s.loadRun h with
    | some l => s.takeShard h l i none
    | none => s
  | .manifest h => match s.loadRun h with
    | some l => s.rejectLoad h l 0x03 0x0A
    | none => s
  | .line f a write => if write then s.loseLine f a else s.poisonLine f a

/-- Is an access a write? -/
def accessWrites : HostAccess → Bool
  | .completion _ => true
  | .line _ _ write => write
  | _ => false

/-- CXL_IO_READ_TIMEOUT (R325). -/
def execCxlIoReadTimeout (a : HostAccess) (s : State) : Host.Outcome State Fault Refusal :=
  when (s.serving && s.linkUp && !accessWrites a && s.hostAccess a) s fun s => (s.hostProtocol 3).accessFails a

/-- CXL_CACHE_TIMEOUT (R325). -/
def execCxlCacheTimeout (a : HostAccess) (s : State) : Host.Outcome State Fault Refusal :=
  when (s.serving && s.cacheMemOpen && s.hostAccess a) s fun s => (s.hostProtocol 4).accessFails a

/-- CXL_CACHE_ERROR_RESPONSE (R325): to a read or to a write. -/
def execCxlCacheErrorResponse (a : HostAccess) (s : State) : Host.Outcome State Fault Refusal :=
  when (s.serving && s.cacheMemOpen && s.hostAccess a) s fun s => (s.hostProtocol (if accessWrites a then 6 else 5)).accessFails a

/-! ## Malformed traffic, viral, IDE (R323, R325, R522) -/

/-- MALFORMED_TLP: discarded and reported through AER, by F0 (log entry 31). -/
def execMalformedTlp (s : State) : Host.Outcome State Fault Refusal := when s.ioOpen s fun s => (s.bumpLink 0).aerReport 0 18 false

/-- UNEXPECTED_COMPLETION: discarded and reported through AER, by F0. -/
def execUnexpectedCompletion (s : State) : Host.Outcome State Fault Refusal := when s.ioOpen s fun s => (s.bumpLink 2).aerReport 0 16 false

/-- MALFORMED_CXL_MESSAGE: discarded, and the link is retrained. -/
def execMalformedCxlMessage (s : State) : Host.Outcome State Fault Refusal :=
  when s.cacheMemOpen s fun s => (s.hostProtocol 8).emit .retrainHost

/-- HOST_VIRAL: CXL.cache and CXL.mem writes and all ring service stop until a warm reset. -/
def execHostViral (s : State) : Host.Outcome State Fault Refusal :=
  when s.ioOpen s fun s => (({ s with host := { s.host with viral := true } } : State).bumpLink 9).raise { code := 0x0607, unit := 9 }

/-- HOST_IDE_FAIL (R323): an integrity failure, or a flit that is not protected. The keys are no longer good, and completion writes are held until
IDE_KM establishes keys again. -/
def execHostIdeFail (s : State) : Host.Outcome State Fault Refusal :=
  when (s.linkUp && s.host.ide == .secure) s fun s =>
    (({ s with host := { s.host with ide := .insecure, holdCpl := true }, sec := { s.sec with ideKeys := [] } } : State).bumpLink 10).raise { code := 0x0605, unit := 9 }

/-- IDE_KM (R323, R522): inside a secure session over DOE on F0, keys for one of the two link streams, CXL.io and CXL.cachemem; once both have
keys the link is secure, and held completion writes go on. -/
def execIdeKm (stream : Nat) (keys : Bytes) (s : State) : Host.Outcome State Fault Refusal :=
  when (s.linkUp && s.host.session && stream < 2) s fun s =>
    let l := Tab.ins s.sec.ideKeys stream keys
    let s : State := { s with sec := { s.sec with ideKeys := l } }
    if [0, 1].all fun n => (Tab.opt l n).isSome then
      { s with host := { s.host with ide := .secure, holdCpl := s.host.holdCpl && s.board.linkDownCount } }
    else s

/-! ## MSI-X (R353) -/

/-- MSIX_UNMASK (R353): a pending message is sent if the function's MSI-X lets it go. -/
def execMsixUnmask (f v : Nat) (s : State) : Host.Outcome State Fault Refusal :=
  when (s.ioOpen && s.functionOn f && v < vectors f) s fun s =>
    ({ s with host := { s.host with unmasked := addNew (2048 * f + v) s.host.unmasked } } : State).sendIfPending f v

end Sys2Proof.Machine
end

