-- ==== Sys2Proof/Machine/Registers.lean ====
section
/-! DEFINITION. The setup registers of F0 (R579 to R599), the event queues (R472), the record reader (R597), and the alert pin (R570). -/

namespace Sys2Proof.Machine

/-! ## Records as the reader gives them (R464, R467, R524, R536, R597) -/

/-- The 128 bytes of an event record (R467, R468), with the phase bit of the queue that holds it. -/
def EvRec.bytes (r : EvRec) (phase : Bool) : Bytes :=
  let bit : Bool → Nat → Nat := fun b n => if b then 2 ^ n else 0
  toLe 8 r.turn.toNat ++ toLe 4 r.phase.toNat ++ toLe 2 r.code ++ toLe 1 r.sev ++
    toLe 1 (bit phase 7 + bit r.ctx.isSome 6 + bit r.handle.isSome 5 + bit r.precise 4 + bit r.suppressed 3 + bit r.lost 2) ++
    toLe 8 r.recno ++ toLe 8 (r.handle.getD 0).toNat ++ toLe 1 (r.ctx.getD 0) ++ toLe 1 r.func ++ toLe 2 (r.core.getD 0xFFFF) ++
    toLe 1 r.unit ++ toLe 1 r.index ++ toLe 2 0 ++ toLe 4 (r.codeOff.getD 0xFFFFFFFF) ++ toLe 4 0 ++ toLe 8 r.address ++ toLe 8 0 ++
    fitTo 48 (r.detail.flatMap (toLe 8)) ++ List.replicate 16 0

/-- The 64 bytes of an energy record (R464): final from the boundary of turn n + 9 on, the record being of turn n − 1. -/
def EnergyRec.bytes (r : EnergyRec) (now : BitVec 64) : Bytes :=
  let bit : Bool → Nat → Nat := fun b n => if b then 2 ^ n else 0
  toLe 8 r.turn.toNat ++ toLe 1 (if r.unattr then 0 else r.ctx) ++
    toLe 1 (bit (decide (r.turn.toNat + 10 ≤ now.toNat)) 7 + bit r.unreconciled 6 + bit r.skipped 5 + bit r.paced 4 + bit r.level 3 +
      bit r.measOnly 2 + bit r.unattr 0) ++
    toLe 2 0 ++ toLe 4 (if r.skipped then 0 else r.ticks) ++ toLe 8 r.energy ++ toLe 8 r.model ++ toLe 8 r.coreTicks ++ toLe 8 r.memCw ++
    toLe 4 r.cap ++ toLe 1 r.opMax ++ toLe 1 r.opMin ++ toLe 1 r.duty ++ List.replicate 9 0

/-- The 640 bytes of a scrub record (R524). -/
def ScrubRec.bytes (r : ScrubRec) : Bytes := r.head ++ fitTo 512 (Config.sign (16 + r.ak) r.head)

/-- The ledger that the reader's context and OPEN turn name (R529, R597). -/
def State.ledgerAt (s : State) (x : Nat) (openTurn : Word) : Option Ledger :=
  if openTurn = 0 then (if (s.ctx x).st == .closed then none else some (s.ctx x).ledger)
  else s.closedLedgers.find? fun l => l.ctx == x && l.openTurn == openTurn

/-- An entry of the closed-ledger list (R597). -/
def State.closedEntry (s : State) (l : Ledger) : Bytes :=
  toLe 8 s.factory.device.toNat ++ toLe 8 l.ctx ++ toLe 8 l.openTurn.toNat ++ toLe 8 (l.lastSeal.getD 0)

/-- The record that a selection names, as bytes; none where it is not there (R597). -/
def State.recordAt (s : State) (sel openTurn : Word) : Option Bytes :=
  let i := field sel 0 48
  let x := field sel 48 8
  match field sel 60 4 with
  | 0 => (s.ev.log.find? fun r => r.recno == i).map fun r => r.bytes false
  | 1 => (s.gov.records.find? fun r => r.turn.toNat % 2 ^ 48 == i && r.unattr == bitAt sel 59 && (r.unattr || r.ctx == x)).map fun r =>
      r.bytes s.turn.count
  | 2 => (s.sec.scrubs.find? fun r => r.recno == i).map ScrubRec.bytes
  | 3 => (s.ledgerAt x openTurn).bind fun l => (l.records.find? fun r => r.recno == i).map LedRec.bytes
  | 4 => (s.ledgerAt x openTurn).bind fun l => (l.sigs.find? fun g => g.1 == i).map fun g => fitTo 512 g.2
  | 5 => (s.closedLedgers[i]?).map s.closedEntry
  | _ => none

/-- A ledger record that has been copied counts as read (R528, R597). -/
def State.markRead (s : State) (sel openTurn : Word) : State :=
  let i := field sel 0 48
  let x := field sel 48 8
  if field sel 60 4 != 3 then s
  else if openTurn = 0 then s.modCtx x fun cx => { cx with ledger := { cx.ledger with readSet := addNew i cx.ledger.readSet } }
  else
    let mark : Ledger → Ledger := fun l => if l.ctx == x && l.openTurn == openTurn then { l with readSet := addNew i l.readSet } else l
    { s with closedLedgers := s.closedLedgers.map mark }

/-! ## Setup errors (R586) -/

/-- Set a bit of ERRCAP for an access at an offset; the first one, from all zero, is captured. -/
def State.setErr (s : State) (bit off : Nat) : State :=
  let g := s.regs
  if g.errcap = 0 then
    { s with regs := { g with errcap := 2 ^ bit, errFirst := BitVec.ofNat 64 (bit * 2 ^ 24 + off), errTurn := s.turn.count } }
  else { s with regs := { g with errcap := g.errcap ||| 2 ^ bit } }

/-- BAD_ACCESS, RANGE, IGNORED, NOT_READY, WINDOW_REFUSED and LOCK_VIOLATION. -/
def errBadAccess : Nat := 5
/-- See `errBadAccess`. -/
def errRange : Nat := 4
/-- See `errBadAccess`. -/
def errIgnored : Nat := 3
/-- See `errBadAccess`. -/
def errNotReady : Nat := 2
/-- See `errBadAccess`. -/
def errRefused : Nat := 1
/-- See `errBadAccess`. -/
def errLocked : Nat := 0

/-! ## What registers read (R581 to R598) -/

/-- Place fields at their lowest bits. -/
def bitsAt (l : List (Nat × Nat)) : Word := BitVec.ofNat 64 ((l.map fun f => f.2 * 2 ^ f.1).sum)

/-- 1 for true. -/
def bit1 (b : Bool) : Nat := if b then 1 else 0

/-- The code of the start-up stage (R551). -/
def Stage.code : Stage → Nat
  | .off => 0
  | .rom => 0
  | .recovery => 1
  | .hub => 2
  | .memory => 3
  | .cores => 4
  | .ready => 5
  | .keeper => 6
  | .tripped => 0

/-- DEGRADED: a quadrant's memory is unavailable, or an array, lane or core is withdrawn (R553, R583). -/
def State.degraded (s : State) : Bool :=
  !((List.range 4).all s.memUp) || !s.units.withdrawn.isEmpty || s.units.fieldLanes.any (fun e => !e.2.isEmpty) ||
    s.units.fieldCols.any fun e => s.arrayWidth e.1 == 0

/-- The identity block (R582). -/
def State.readIdentity (s : State) (off : Nat) : Option Word :=
  let i := s.fw.running
  match off with
  | 0x000 => some (bitsAt [(32, 0x01), (16, 0x4800), (0, Config.vendor.toNat)])
  | 0x008 => some 0x00584C2D3834565A
  | 0x010 => some s.factory.device
  | 0x018 => some (bitsAt [(56, i.major % 256), (48, i.minor % 256), (32, 0x0101), (16, 0x0100), (0, 0x0100)])
  | 0x020 => some i.build
  | 0x028 => some (bitsAt [(48, 0x0100), (32, 0x0101), (17, bit1 s.fw.activation.isSome), (16, bit1 s.fw.staged.isSome), (8, s.fw.svnFloor),
      (0, i.svn)])
  | _ => none

/-- Status and control, the admin ring and F0's event queue (R583 to R587). -/
def State.readControl (s : State) (off : Nat) : Option Word :=
  let q := Tab.look s.ev.queues {} 0
  match off with
  | 0x1000 => some (bitsAt [(4, ofBits ((List.range 4).filter s.memUp)), (3, bit1 s.degraded), (0, s.board.stage.code)])
  | 0x1008 => some 0
  | 0x1010 => some (bitsAt [(16, bit1 s.regs.hostCapLock), (0, s.gov.capH)])
  | 0x1018 => some (BitVec.ofNat 64 s.regs.errcap)
  | 0x1020 => some s.regs.errFirst
  | 0x1028 => some s.regs.errTurn
  | 0x2000 => some (s.regs.adminHdr ||| bitsAt [(3, bit1 ((s.ring .admin).any fun r => r.stopped)), (2, bit1 (s.ring .admin).isSome),
      (0, bit1 s.regs.adminEnable)])
  | 0x2008 => some 0
  | 0x2010 => some q.base
  | 0x2018 => some (BitVec.ofNat 64 q.head.toNat)
  | 0x2020 => some q.dropped.word
  | _ => none

/-- The code of a turn unit's state (R588). -/
def TurnState.code : TurnState → Nat
  | .unset => 0
  | .locking => 1
  | .locked => 2
  | .free => 3
  | .holdover => 4
  | .lost => 5

/-- The turn unit (R588). -/
def State.readTurn (s : State) (off : Nat) : Option Word :=
  let t := s.turn
  let p := t.params
  match off with
  | 0x3000 => some t.count
  | 0x3008 => some (BitVec.ofNat 64 t.latched.toNat)
  | 0x3010 => some (bitsAt [(16, t.held % 65536), (11, bit1 t.followed.isSome), (8, t.followed.getD 0), (6, bit1 t.conflict),
      (4, if p.source.isNone then 3 else sourceCode p.source), (0, t.st.code)])
  | 0x3018 => some (bitsAt [(0, p.period)])
  | 0x3020 => some (bitsAt [(0, p.epoch)])
  | 0x3028 => some (bitsAt [(0, p.start)])
  | 0x3030 => some (bitsAt [(24, p.lead), (16, p.ptpDomain), (8, p.inPorts.toNat), (0, p.outPorts.toNat)])
  | 0x3038 => some (bitsAt [(32, p.holdLim), (21, p.stretchLim), (0, p.jumpLim)])
  | _ => none

/-- The code of the governor's state (R589). -/
def GovState.regCode : GovState → Nat
  | .governed => 0
  | .level => 1
  | .levelSuspended => 2
  | .paced => 3
  | .keeper => 4

/-- Does the clamp limit the offset of a core group at some operating point (R442)? -/
def State.offsetClamped (s : State) (g : Nat) : Bool :=
  let o := Tab.look s.gov.offsets 0 g
  o != 0 && (List.range 8).any fun k => s.voltage g k != s.nominal g k + o

/-- The governor and the energy counters (R589, R590). -/
def State.readGovernor (s : State) (off : Nat) : Option Word :=
  let g := s.gov
  if off % 8 != 0 then none
  else if off = 0x4000 then
    some (bitsAt (((List.range 4).map fun q => (32 + 3 * q, (s.quad q).op)) ++
      [(16, s.capE), (8, g.duty), (4, bit1 g.brake), (3, bit1 g.measOnly), (0, g.st.regCode)]))
  else if off = 0x4008 then some (bitsAt [(32, bit1 g.levelMode), (16, g.capB), (0, g.capM)])
  else if 0x4010 ≤ off && off ≤ 0x4028 then
    some (bitsAt ((List.range 8).map fun i => (8 * i, wrapN 8 (Tab.look g.offsets 0 ((off - 0x4010) + i)))))
  else if off = 0x4030 then some (bitsAt [(0, ofBits ((List.range 32).filter s.offsetClamped))])
  else if off = 0x4038 then some (bitsAt [(48, s.factory.levelCeil), (32, s.factory.pKeep), (16, s.factory.pRest), (0, s.factory.pFloor)])
  else if off = 0x4100 then some (BitVec.ofNat 64 g.inputMeter)
  else if 0x4108 ≤ off && off ≤ 0x4290 then some (BitVec.ofNat 64 (Tab.look g.meters 0 ((off - 0x4108) / 8)))
  else if 0x4400 ≤ off && off < 0x4C00 then some (BitVec.ofNat 64 (Tab.look g.charged 0 ((off - 0x4400) / 8)))
  else none

/-- Parameters, the function table and the spill quotas (R591, R592). -/
def State.readSetup (s : State) (off : Nat) : Option Word :=
  let p := s.params
  if off = 0x5000 then some (bitsAt [(32, p.selfTest), (16, p.filler), (8, p.wU), (0, bit1 p.uniform)])
  else if off = 0x5008 then some (bitsAt [(32, p.deadlineMax), (0, p.deadlineMin)])
  else if off = 0x5010 then some (bitsAt [(0, p.deadlock)])
  else if off = 0x5018 then some (bitsAt [(48, p.shardTimeout), (40, p.digestScrub), (32, p.scrub), (27, bit1 (p.gPending.any (· != p.g))),
      (16, p.gPending.getD p.g), (0, p.g)])
  else if off = 0x5020 then some (bitsAt (((List.range 4).map fun q => (8 + 11 * q, Tab.look s.net.slice 4 q)) ++
      [(0, if s.net.layout = 4 then 2 else s.net.layout - 1)]))
  else if off = 0x5028 then some (bitsAt [(32, p.sealEvery), (16, p.recovery), (0, bit1 p.watchdogKeep)])
  else if off = 0x5030 then some (bitsAt [(0, p.stallTurns)])
  else if off = 0x5038 then some (bitsAt [(31, bit1 (p.cxlMemPending.any (· != p.cxlMem))), (16, p.cxlMemPending.getD p.cxlMem), (0, p.cxlMem)])
  else if off % 8 = 0 && 0x5200 ≤ off && off < 0x5400 then
    let f := s.func ((off - 0x5200) / 8)
    some (bitsAt [(8, f.quota), (2, f.partition), (0, f.priority)])
  else if off % 8 = 0 && 0x5400 ≤ off && off < 0x5600 then some (BitVec.ofNat 64 (s.func ((off - 0x5400) / 8)).spillQuota)
  else none

/-- The code of a port's state (R594). -/
def PortState.code : PortState → Nat
  | .disabled => 0
  | .dark => 1
  | .training => 2
  | .negotiating => 3
  | .authenticating => 4
  | .up => 5
  | .recovering => 6

/-- The fabric, its ports, frames and routes (R593 to R596). -/
def State.readFabric (s : State) (off : Nat) : Option Word :=
  let n := s.net
  if off = 0x6000 then some (bitsAt [(48, bit1 n.fmNode.isSome), (32, n.fmNode.getD 0), (16, bit1 n.node.isSome), (0, n.node.getD 0)])
  else if off = 0x6008 then some (bitsAt [(16, n.transit.toNat), (0, n.enabled.toNat)])
  else if off = 0x6010 then some (bitsAt [(32, n.abuse), (16, n.retryLimit), (0, n.remoteTimeout)])
  else if off % 8 = 0 && 0x6100 ≤ off && off < 0x6140 then
    let o := s.port ((off - 0x6100) / 8)
    let live := o.st == .up || o.st == .recovering
    some (bitsAt [(32, if live then o.delay else 0), (16, o.partner), (12, o.version / 256 % 16), (8, o.version % 16), (4, o.lanes),
      (0, o.st.code)])
  else if off % 8 = 0 && 0x7000 ≤ off && off < 0x7800 then
    some (if s.params.cxlMem ≤ (off - 0x7000) / 8 then 0 else Tab.look s.host.frames 0 ((off - 0x7000) / 8))
  else if off % 8 = 0 && 0x10000 ≤ off && off < 0x20000 then
    some (bitsAt ((List.range 8).map fun i =>
      let r := Tab.look n.routes {} (off - 0x10000 + i)
      (8 * i, (if r.valid then 128 else 0) + r.port)))
  else none

/-- The record reader (R597). -/
def State.readReader (s : State) (off : Nat) : Option Word :=
  let g := s.regs
  if off = 0x20000 then some g.treadSel
  else if off = 0x20008 then some g.treadLedger
  else if off = 0x20010 then some (bitsAt [(16, g.treadLen), (0, g.treadState)])
  else if off = 0x20018 then some 0
  else if off % 8 = 0 && 0x20400 ≤ off && off < 0x20800 then some (BitVec.ofNat 64 (leAt g.treadData (off - 0x20400) 8))
  else none

/-- Kinds of counters: instances, stride, counters of an instance (R598). -/
def counterKind : Nat → Nat × Nat × Nat
  | 0 => (1024, 256, 12)
  | 1 => (128, 256, 26)
  | 2 => (384, 128, 9)
  | 3 => (8, 256, 16)
  | 4 => (4096, 128, 6)
  | 5 => (256, 256, 26)
  | 6 => (4, 128, 9)
  | _ => (0, 1, 0)

/-- Is an address that of a counter (R598)? -/
def counterAt (off : Nat) : Bool :=
  let k := (off - 0x800000) / 0x100000
  let r := (off - 0x800000) % 0x100000
  if off < 0x800000 || off % 8 != 0 || 8 ≤ k then false
  else if k = 7 then r < 48 || (0x40 ≤ r && r ≤ 0x98)
  else
    let c := counterKind k
    r / c.2.1 < c.1 && r % c.2.1 / 8 < c.2.2

/-- What a setup register reads; none where the offset is not implemented (R580). The recovery loader answers the identity block, STARTUP and
ERRCAP, and reads zero elsewhere (R599). -/
def State.readReg (s : State) (off : Nat) : Option Word :=
  let all := (s.readIdentity off <|> s.readControl off <|> s.readTurn off <|> s.readGovernor off <|> s.readSetup off <|> s.readFabric off
    <|> s.readReader off <|> if counterAt off then some (Tab.look s.counters {} off).word else none)
  if s.board.stage != .recovery || off < 0x1000 || off = 0x1000 || off = 0x1018 then all else all.map fun _ => 0

/-! ## Writes -/

/-- A write to a setup register: nothing answers before the link is up, and the recovery loader discards it (R599). -/
def regRow (s : State) (f : State → State) : Host.Outcome State Fault Refusal :=
  when (s.ioOpen && s.board.stage != .recovery) s f

/-- A write that is refused until STARTUP reports READY (R599). -/
def State.needReady (s : State) (off : Nat) (f : State → State) : State := if s.serving then f s else s.setErr errNotReady off

/-- CTX_RESET (R584): the reserved bits are ignored (R9). -/
def execCtxReset (v : Word) (s : State) : Host.Outcome State Fault Refusal :=
  regRow s fun s => s.needReady 0x1008 fun s =>
    if s.mayReset (field v 0 8) then s.resetCtx (field v 0 8) else s.setErr errIgnored 0x1008

/-- MGMT_CONTEXT_RESET (R481). -/
def execMgmtContextReset (who : Client) (x : Nat) (s : State) : Host.Outcome State Fault Refusal :=
  mgmt who roleConfig s fun s => s.accept (s.serving && x < 256 && s.mayReset x) fun s => s.resetCtx x

/-- HOST_CAP (R585). Once locked, every write sets LOCK_VIOLATION alone, also one whose CAP is out of range (R12; log entry 136). -/
def execHostCap (v : Word) (s : State) : Host.Outcome State Fault Refusal :=
  regRow s fun s =>
    if s.regs.hostCapLock then s.setErr errLocked 0x1010
    else if 1900 < field v 0 11 then s.setErr errRange 0x1010
    else { s with gov := { s.gov with capH := field v 0 11 }, regs := { s.regs with hostCapLock := bitAt v 16 } }

/-- ERRCAP_CLEAR (R586): ones clear bits; ERRCAP_FIRST and ERRCAP_TURN are released once every bit is clear. In every stage (R599). -/
def execErrcapClear (v : Word) (s : State) : Host.Outcome State Fault Refusal :=
  when s.ioOpen s fun s =>
    let e := ofBits ((bitsOf 6 s.regs.errcap).filter fun i => !bitAt v i)
    if e = 0 then { s with regs := { s.regs with errcap := 0, errFirst := 0, errTurn := 0 } }
    else { s with regs := { s.regs with errcap := e } }

/-- ADMIN_RING_ENABLE (R328, R552): from 0 to 1 the ring is set up from its header, which the operand holds; before READY, and while no ring
is served, the write is held. -/
def execAdminRingEnable (v : Word) (hdr : Option Bytes) (s : State) : Host.Outcome State Fault Refusal :=
  when (s.ioOpen && s.board.stage != .recovery && bitAt v 0) s fun s =>
    let was := s.regs.adminEnable
    let s : State := { s with regs := { s.regs with adminHdr := v &&& ~~~(0x7F : Word), adminEnable := true } }
    if was then s else ({ s with regs := { s.regs with adminHeld := some hdr } } : State).takeAdmin

/-- ADMIN_RING_DISABLE (R328). -/
def execAdminRingDisable (v : Word) (s : State) : Host.Outcome State Fault Refusal :=
  when (s.ioOpen && s.board.stage != .recovery && !bitAt v 0) s fun s =>
    let was := s.regs.adminEnable
    let s : State := { s with regs := { s.regs with adminHdr := v &&& ~~~(0x7F : Word), adminEnable := false, adminHeld := none } }
    if was then s.disableAdmin else s

/-- ADMIN_DB (R328): discarded and counted while the admin ring is not set up in MMIO mode. -/
def execAdminDb (v : Word) (s : State) : Host.Outcome State Fault Refusal :=
  regRow s fun s => if (s.ring .admin).any fun r => r.mmio then s.ringWord .admin v else s.bumpRing .admin 3 1

/-! ## Event queues (R472) -/

/-- Change the event queue of a function. -/
def State.modEvq (s : State) (f : Nat) (g : EvQueue → EvQueue) : State :=
  { s with ev := { s.ev with queues := Tab.upd s.ev.queues {} f g } }

/-- A write to EVQ_BASE that is not discarded: HEAD and the numbering of records restart when ENABLE is set. -/
def EvQueue.setBase (q : EvQueue) (v : Word) : EvQueue :=
  let v := v &&& ~~~(0xFE : Word)
  if bitAt v 0 && !bitAt q.base 0 then { q with base := v, head := 0, written := 0, unread := [] } else { q with base := v }

/-- EVQ_BASE (R472). -/
def execEvqBase (f : Nat) (v : Word) (s : State) : Host.Outcome State Fault Refusal :=
  regRow s fun s =>
    if !s.functionOn f then s.unsupported 0
    else if 8 < field v 8 4 then (if f = 0 then s.setErr errRange 0x2010 else s)
    else s.modEvq f fun q => q.setBase v

/-- A write to EVQ_HEAD: what lies below it has been consumed. -/
def EvQueue.setHead (q : EvQueue) (v : Word) : EvQueue :=
  { q with head := BitVec.ofNat 32 (field v 0 32), unread := q.unread.drop (q.unread.length - ahead32 (q.written % 2 ^ 32) (field v 0 32)) }

/-- EVQ_HEAD (R472). -/
def execEvqHead (f : Nat) (v : Word) (s : State) : Host.Outcome State Fault Refusal :=
  regRow s fun s => if s.functionOn f then s.modEvq f fun q => q.setHead v else s.unsupported 0

/-- Records that an event queue holds. -/
def EvQueue.size (q : EvQueue) : Nat := 2 ^ (field q.base 8 4 + 4)

/-- May the unit write the next record of a queue (R472)? -/
def EvQueue.room (q : EvQueue) : Bool := bitAt q.base 0 && ahead32 (q.written % 2 ^ 32) q.head.toNat < q.size

/-- EVENT_DELIVERY (R472, R473): the oldest held record goes into its slot, and is announced on vector 0. -/
def execEventDelivery (f : Nat) (s : State) : Host.Outcome State Fault Refusal :=
  let q := Tab.look s.ev.queues {} f
  match q.held with
  | [] => idle s
  | r :: l =>
    when (s.hostWrites && s.htUp && s.mgmtUp && s.functionOn f && q.room) s fun s =>
      let r := { r with lost := q.lostNext }
      let s := s.hostWrite f (field q.base 12 52 * 4096 + 128 * (q.written % q.size)) (r.bytes (q.written / q.size % 2 = 0)) false
      (s.modEvq f fun q => { q with held := l, written := q.written + 1, lostNext := false, unread := q.unread ++ [r.sev] }).sendMsix f 0

/-- Is ALERT_N asserted (R570)? -/
def State.alert (s : State) : Bool :=
  let q := Tab.look s.ev.queues {} 0
  s.board.stage != .off && (q.unread.any (fun v => 2 ≤ v) || q.held.any (fun r => 2 ≤ r.sev) || s.board.stage == .recovery ||
    s.board.stage == .keeper || s.host.link == .ioOnly || s.host.link == .failed)

/-! ## Frames and the record reader (R320, R596, R597) -/

/-- Is a page use firmware-owned (R320, R358)? -/
def PageUse.firmwareOwned : PageUse → Bool
  | .firmware _ => true
  | .countTable _ => true
  | _ => false

/-- Is the mapping of a 1 GiB range refused (R320)? -/
def State.frameRefused (s : State) (hi : Nat) : Bool :=
  let lo := hi * 512
  let base := hi * 2 ^ 30
  let inside : Nat → Bool := fun p => lo ≤ p && p < lo + 512
  -- the chunks of the global region lie in every quadrant in turn (R247)
  let quads := if dpaOff base < s.gBytes then List.range 4 else [dpaQuad base]
  s.mem.retired.any inside || s.mem.pages.any (fun e => inside e.1 && e.2.firmwareOwned) ||
    Config.qLimit < dpaOff base + 2 ^ 30 || !quads.all s.memUp

/-- FRAME_ENTRY (R320, R596). -/
def execFrameEntry (f : Nat) (v : Word) (s : State) : Host.Outcome State Fault Refusal :=
  when (s.ioOpen && s.board.stage != .recovery && f < 256) s fun s => s.needReady (0x7000 + 8 * f) fun s =>
    if s.params.cxlMem ≤ f then s.setErr errRange (0x7000 + 8 * f)
    else if bitAt v 63 && s.frameRefused (field v 0 13) then s.setErr errRefused (0x7000 + 8 * f)
    else { s with host := { s.host with frames := Tab.put s.host.frames 0 f (v &&& 0xC000000000001FFF) } }

/-- TREAD_SEL (R597): a copy starts, and an earlier one is abandoned; a reserved source is INVALID. -/
def execTreadSel (v : Word) (s : State) : Host.Outcome State Fault Refusal :=
  regRow s fun s => s.needReady 0x20000 fun s =>
    { s with regs := { s.regs with
      treadSel := v &&& ~~~(0x0700000000000000 : Word), treadState := if 6 ≤ field v 60 4 then 3 else 1, treadLen := 0, treadData := [] } }

/-- RECORD_COPY_DONE (R597). -/
def execRecordCopyDone (s : State) : Host.Outcome State Fault Refusal :=
  when (s.serving && s.regs.treadState == 1) s fun s =>
    match s.recordAt s.regs.treadSel s.regs.treadLedger with
    | none => { s with regs := { s.regs with treadState := 2 } }
    | some d =>
      ({ s with regs := { s.regs with treadState := 0, treadLen := d.length, treadData := d } } : State).markRead
        s.regs.treadSel s.regs.treadLedger

/-- LEDGER_RELEASE (R529, R597). -/
def execLedgerRelease (v : Word) (s : State) : Host.Outcome State Fault Refusal :=
  regRow s fun s => s.needReady 0x20018 fun s =>
    let hit : Ledger → Bool := fun l => l.ctx == field v 0 8 && l.openTurn == s.regs.treadLedger
    if s.closedLedgers.any hit then { s with closedLedgers := s.closedLedgers.filter fun l => !hit l } else s.setErr errIgnored 0x20018

/-- TURN_COUNT_READ (R588): the phase of the same cycle is latched. -/
def execTurnCountRead (s : State) : Host.Outcome State Fault Refusal :=
  whenTurn (s.ioOpen && s.board.stage != .recovery) s fun s =>
    ({ s with turn := { s.turn with latched := s.turn.phase } } : State).emit (.value s.turn.count)

/-- Offsets whose writes have rows of their own. -/
def ownRow (off : Nat) : Bool :=
  off ∈ [0x1008, 0x1010, 0x1018, 0x2000, 0x2008, 0x2010, 0x2018, 0x20000, 0x20018] || (0x7000 ≤ off && off < 0x7800)

/-- What a write of a setup register without a row of its own does (R579, R580, R10). -/
def State.regWrite (s : State) (off size : Nat) (v : Word) : State :=
  if size != 8 || off % 8 != 0 then s.setErr errBadAccess off
  else if (s.readReg off).isNone then s.unsupported 0
  else if off = 0x20008 && s.board.stage != .recovery then { s with regs := { s.regs with treadLedger := v } }
  else s

/-- REG_WRITE (R579, R580, R10): a write of another size or alignment is BAD_ACCESS; an offset that is not implemented is an Unsupported
Request; TREAD_LEDGER is stored; every other register is read-only, and ignores the write. A write that has a row of its own is not this
row. -/
def execRegWrite (off size : Nat) (v : Word) (s : State) : Host.Outcome State Fault Refusal :=
  when (s.ioOpen && (size != 8 || off % 8 != 0 || !ownRow off)) s fun s =>
    s.regWrite off size v

/-! ## Memory requests (R311, R314, R325, R579) -/

/-- A read of a setup register: an aligned 4-byte or 8-byte read; any other, and an offset that is not implemented, is an Unsupported Request.
The row TURN_COUNT_READ is the read of TURN_COUNT. -/
def State.setupRead (s : State) (off size : Nat) : State :=
  if off = 0x3000 && size = 8 then s
  else if (size != 4 && size != 8) || off % size != 0 then s.unsupported 0
  else match s.readReg (off / 8 * 8) with
    | none => s.unsupported 0
    | some w => s.emit (.value (if size = 8 then w else BitVec.ofNat 64 (field w (8 * (off % 8)) 32)))

/-- What a memory request does in the BAR that it reaches; a write of a setup register that has a row of its own is that row. -/
def State.barRequest (s : State) (at_ : BarArea × Nat) (size : Nat) (v : Option Word) : State :=
  match at_.1, v with
  | .area f, none => if s.functionOn f then s.areaRead f at_.2 size else s.unsupported 0
  | .area f, some w => if s.functionOn f then s.areaWrite f at_.2 size w else s.unsupported 0
  | .component, none => s.componentRead at_.2
  | .component, some w => s.componentWrite at_.2 w
  | .setup, none => s.setupRead at_.2 size
  | .setup, some w => if size = 8 && at_.2 % 8 = 0 && ownRow at_.2 then s else s.regWrite at_.2 size w

/-- MMIO_DOORBELL (R311, R314, R325): a write or a read of the host, a write with its value. One that no BAR claims is an Unsupported
Request. -/
def execMmioDoorbell (write : Bool) (addr size : Nat) (v : Word) (s : State) : Host.Outcome State Fault Refusal :=
  when s.ioOpen s fun s => match s.barAt addr with
    | none => s.unsupported 0
    | some x => s.barRequest x size (if write then some v else none)

end Sys2Proof.Machine
end

