-- ==== Sys2Proof/Machine/Owner.lean ====
section
/-! DEFINITION. Requests of the management network about ownership, reading, subscriptions, weight keys, reference collections and re-tests
(R474, R503, R504, R506 to R508, R512, R561). -/

namespace Sys2Proof.Machine

/-! ## Ownership (R503) -/

/-- The claim code as the module label prints it, without its hyphens. -/
def claimCode (b : Bytes) : Bytes := b.filter fun x => x != 0x2D

/-- Is a claim in order: the label code, and one to four trust anchors? -/
def State.claimOk (s : State) (code : Bytes) (anchors : List Nat) : Bool :=
  sha512 (claimCode code) == s.factory.claimDigest && 1 ≤ anchors.length && anchors.length ≤ 4

/-- The Volud is owned, by the identity of the claim. -/
def State.own (s : State) (anchors : List Nat) (admin : Nat) : State :=
  { s with sec := { s.sec with owned := true, anchors, idents := [(admin, [.admin])] } }

/-- CLAIM (R503): the one request that an unowned Volud accepts, over TLS with any client certificate. -/
def execClaim (who : Client) (code : Bytes) (anchors : List Nat) (admin : Nat) (s : State) : Host.Outcome State Fault Refusal :=
  when s.mgmtUp s fun s =>
    if who.src ∈ s.sec.blocked then s
    else if s.sec.owned || !who.tls then (s.authFail who.src).emit (.http 403 [])
    else s.inService fun s => s.acceptConfig (s.claimOk code anchors) fun s => s.own anchors admin

/-- What ownership leaves behind is erased: anchors, identities, allow-list, routes and imported keys. -/
def State.disown (s : State) : State :=
  { s with
    sec := { s.sec with owned := false, anchors := [], idents := [], allow := [], wkeys := [] }
    net := { s.net with routes := [] } }

/-- RELEASE_OWNERSHIP (R503). -/
def execReleaseOwnership (who : Client) (s : State) : Host.Outcome State Fault Refusal :=
  mgmt who roleAdmin s fun s => s.acceptConfig true State.disown

/-! ## Reading (R504, R525, R536) -/

/-- The selector of the record reader that a source, a context and an index stand for. Energy records: the index is the turn, and context 256
names the unattributed record. -/
def mgmtSelect (src : MgmtSource) (ctx idx : Nat) : Option Word :=
  let sel : Nat → Nat → Word := fun k x => BitVec.ofNat 64 (k * 2 ^ 60 + x % 256 * 2 ^ 48 + idx % 2 ^ 48)
  match src with
  | .eventLog => some (sel 0 0)
  | .energy => some (if ctx = 256 then BitVec.ofNat 64 (2 ^ 60 + 2 ^ 59 + idx % 2 ^ 48) else sel 1 ctx)
  | .scrubLog => some (sel 2 0)
  | .ledger => some (sel 3 ctx)
  | _ => none

/-- The OPEN turn under which a ledger is read: an open context's own, or, for numbers from 256 on, that of a closed ledger by its place. -/
def State.mgmtLedger (s : State) (ctx : Nat) : Word × Nat :=
  if ctx < 256 then (0, ctx)
  else match s.closedLedgers[ctx - 256]? with
    | some l => (l.openTurn, l.ctx)
    | none => (0, ctx - 256)

/-- The readings of the telemetry that are no counters (log entry 130): 1 the withdrawn arrays by global number (R91), 2 the bytes of
memory lost to retired ranges (R256), 3 the temperature of package idx in °C (R259). -/
def State.reading (s : State) (n idx : Nat) : Option Bytes :=
  match n with
  | 1 => some (((List.range 1024).filter fun a => s.arrayWidth a = 0).flatMap fun a => toLe 8 a)
  | 2 => some (toLe 8 (s.mem.retired.length * Config.page))
  | 3 => (Tab.opt s.mem.temps idx).map fun t => toLe 8 (wrapN 64 t)
  | _ => none

/-- What a read answers, and the state that it leaves: a ledger record read by management counts as read (R528). -/
def State.mgmtAnswer (s : State) (src : MgmtSource) (ctx idx : Nat) : Option Bytes × State :=
  match src with
  | .attestation => (if idx = 0 then some s.akCert else none, s)
  | .telemetry => (match ctx with
      | 0 => if counterAt idx then (s.readReg idx).map fun w => toLe 8 w.toNat else none
      | n => s.reading n idx, s)
  | .config => ((s.readReg idx).map fun w => toLe 8 w.toNat, s)
  | .ledger =>
    let l := s.mgmtLedger ctx
    let sel := BitVec.ofNat 64 (3 * 2 ^ 60 + l.2 * 2 ^ 48 + idx % 2 ^ 48)
    match if 256 ≤ ctx && (s.closedLedgers[ctx - 256]?).isNone then none else s.recordAt sel l.1 with
    | some b => (some b, s.markRead sel l.1)
    | none => (none, s)
  | _ => ((mgmtSelect src ctx idx).bind fun sel => s.recordAt sel 0, s)

/-- MGMT_READ (R504): every role may read; what is not there answers 404. -/
def execMgmtRead (who : Client) (src : MgmtSource) (ctx idx : Nat) (s : State) : Host.Outcome State Fault Refusal :=
  mgmt who roleAny s fun s =>
    match s.mgmtAnswer src ctx idx with
    | (some b, t) => t.emit (.http 200 b)
    | (none, t) => t.emit (.http 404 [])

/-- EVENT_SUBSCRIBE (R506): up to eight push subscriptions, and streams. -/
def execEventSubscribe (who : Client) (push : Bool) (s : State) : Host.Outcome State Fault Refusal :=
  mgmt who roleAny s fun s =>
    if push then s.accept (s.sec.subs < 8) fun s => { s with sec := { s.sec with subs := s.sec.subs + 1 } }
    else s.accept true fun s => { s with sec := { s.sec with streams := s.sec.streams + 1 } }

/-- TELEMETRY_CLEAR (R474). -/
def execTelemetryClear (who : Client) (addrs : List Nat) (s : State) : Host.Outcome State Fault Refusal :=
  mgmt who roleConfig s fun s => s.accept (addrs.all counterAt) fun s =>
    { s with counters := s.counters.filter fun e => !addrs.contains e.1 }

/-! ## Weight keys (R507, R508) -/

/-- Is a wrapped-key record well formed and meant for this Volud? -/
def State.keyRecordOk (s : State) (r : Bytes) : Bool :=
  leAt r 0 4 == 0x594B575A && leAt r 4 2 == 1 && leAt r 6 2 == 0 && leAt r 8 8 == s.factory.device.toNat && r.length == 0x250

/-- The entry that a record and its opened message give; none where a check of R508 fails. -/
def State.keyEntry (s : State) (r : Bytes) (opened : Option Bytes) : Option WeightKey :=
  match opened with
  | none => none
  | some m =>
    let d := digestOf (sliceAt r 0x10 64)
    if !s.keyRecordOk r || m.length != 49 || leAt m 0x30 1 ≥ 2 || !s.sec.akExists then none
    else if 1024 ≤ (s.sec.wkeys.filter fun k => k.digest != d).length then none
    else some { digest := d, key := m.take 32, funcs := BitVec.ofNat 64 (leAt m 0x20 8), expires := BitVec.ofNat 64 (leAt m 0x28 8)
                refOk := leAt m 0x30 1 == 1 }

/-- WEIGHT_KEY_IMPORT (R508): the operand `opened` is the OAEP message under UK, or none where it does not decode. -/
def execWeightKeyImport (who : Client) (r : Bytes) (opened : Option Bytes) (s : State) : Host.Outcome State Fault Refusal :=
  mgmt who roleKeys s fun s =>
    match s.keyEntry r opened with
    | none => (s.raise { code := 0x0D02, unit := 12 }).emit (.http 400 [])
    | some k => ({ s with sec := { s.sec with wkeys := (s.sec.wkeys.filter fun e => e.digest != k.digest) ++ [k] } } : State).emit (.http 204 [])

/-- WEIGHT_KEY_REMOVE (R508). -/
def execWeightKeyRemove (who : Client) (d : Digest) (s : State) : Host.Outcome State Fault Refusal :=
  mgmt who roleKeys s fun s =>
    if s.sec.wkeys.any fun k => k.digest == d then
      ({ s with sec := { s.sec with wkeys := s.sec.wkeys.filter fun k => k.digest != d } } : State).emit (.http 204 [])
    else s.emit (.http 404 [])

/-! ## Reference collections (R297, R512, R513) -/

/-- Are the settings of a new collection in range? -/
def State.collOk (s : State) (id part : Nat) (atUse : Bool) (width : Nat) : Bool :=
  1 ≤ id && id < 2 ^ 32 && (Tab.opt s.colls id).isNone && part < s.net.layout && (if atUse then width == 64 else 56 ≤ width && width ≤ 64)

/-- REF_COLLECTION_CREATE (R512, R513): an encrypted collection takes a memory slot. -/
def execRefCollectionCreate (who : Client) (id part : Nat) (atUse : Bool) (width : Nat) (replica encrypted : Bool) (s : State) :
    Host.Outcome State Fault Refusal :=
  mgmt who roleConfig s fun s =>
    if !s.serving then s.emit (.http 503 [])
    else if !s.collOk id part atUse width then s.emit (.http 400 [])
    else
      let r := if encrypted then s.takeSlot 2 id else (s, some 0)
      match r.2 with
      | none => r.1.emit (.http 507 [])
      | some slot =>
        let k : Coll := { part, atUse, width, slot, encrypted, wantReplica := replica }
        ({ r.1 with colls := Tab.ins r.1.colls id k } : State).emit (.http 204 [])

/-- The load that a block with its lists describes; none where a check of R344 or R283 fails. -/
def State.collRun (s : State) (k : Coll) (block : Bytes) : Option LoadRun :=
  let ns := leAt block 0x70 4
  let nt := leAt block 0x74 4
  let src := sliceAt block 128 (16 * ns)
  let tier := sliceAt block (128 + 16 * ns) (16 * nt)
  let digest := digestOf (block.take 64)
  let l := loadFrom block src tier 0 none k.atUse false (s.weightKey 0 true digest)
  if 65536 < ns || 4096 < nt || (sourceFault (sliceAt block 0x40 16 :: sourcesOf src ns)).isSome ||
      l.tier.any (fun e => e.1 % Config.page != 0 || e.2 % Config.page != 0) then none
  else some l

/-- REF_COLLECTION_LOAD (R512): the operand is the load block in F0's host memory, followed by its source entries and tier extents. -/
def execRefCollectionLoad (who : Client) (id : Nat) (block : Bytes) (s : State) : Host.Outcome State Fault Refusal :=
  mgmt who roleConfig s fun s =>
    if !s.serving then s.emit (.http 503 [])
    else match Tab.opt s.colls id with
      | none => s.emit (.http 404 [])
      | some k =>
        if k.load.isSome || k.body.manifest.isSome then s.emit (.http 409 [])
        else match s.collRun k block with
          | none => s.emit (.http 400 [])
          | some l =>
            let body : GenBody := { digest := l.digest, st := .loading, atUse := k.atUse, width := k.width, slot := k.slot }
            ({ s with colls := Tab.ins s.colls id { k with load := some l, body } } : State).emit (.http 202 [])

/-- REF_COLLECTION_DELETE (R512, R523, R524): refused while a context maps it; its pages are scrubbed, its slot is released. -/
def execRefCollectionDelete (who : Client) (id : Nat) (s : State) : Host.Outcome State Fault Refusal :=
  mgmt who roleConfig s fun s =>
    if !s.serving then s.emit (.http 503 [])
    else match Tab.opt s.colls id with
      | none => s.emit (.http 404 [])
      | some k =>
        if !(s.mappers id).isEmpty || k.load.isSome then s.emit (.http 409 [])
        else
          let pages := s.genPages (.coll id)
          let s := (s.freePages pages).dropSlot k.slot
          let s : State := { s with colls := Tab.del s.colls id }
          (s.appendScrub 5 0 0 k.slot (if k.slot = 0 then 0 else 1) pages 0 0).emit (.http 204 [])

/-! ## Re-tests (R561) -/

/-- Is a unit withdrawn, or does the field list name part of it? -/
def State.mayRetest (s : State) (u : TestUnit) : Bool :=
  match u with
  | .array x => x < 1024 && !(Tab.look s.units.fieldCols [] x).isEmpty
  | .lanes c => c < 128 && !(Tab.look s.units.fieldLanes [] c).isEmpty
  | .core c => c ∈ s.units.withdrawn

/-- RETEST_REQUEST (R561): the test runs at the next idle opportunity. -/
def execRetestRequest (who : Client) (u : TestUnit) (s : State) : Host.Outcome State Fault Refusal :=
  mgmt who roleConfig s fun s =>
    if s.mayRetest u then ({ s with fw := { s.fw with retests := addNew u s.fw.retests } } : State).emit (.http 202 []) else s.emit (.http 400 [])

end Sys2Proof.Machine
end

