-- ==== Sys2Proof/Machine/Firmware.lean ====
section
/-! DEFINITION. Firmware images, their staging and activation, the recovery loader's actions, and the CXL mailbox (R310, R545 to R547, R554 to
R557). -/

namespace Sys2Proof.Machine

/-! ## Images (R545, R546) -/

/-- Does an image verify? The operand `verifies` is the outcome of the two checks by public key: certificate and signature. -/
def State.imageOk (s : State) (d : Bytes) (verifies : Bool) : Bool :=
  let n := leAt d 0x10 8
  verifies && leAt d 0 4 == 0x4957465A && leAt d 4 2 == 1 && leAt d 8 4 ≤ 63 && s.fw.svnFloor ≤ leAt d 8 4 && leAt d 0x0C 4 == 0 &&
    1 ≤ n && n ≤ 65007616 && d.length == 4096 + n && 1 ≤ leAt d 0x60 2 && leAt d 0x60 2 ≤ 2048 && allZero (sliceAt d 0x62 30) &&
    allZero (sliceAt d 0xA80 1408) && sha512 (d.drop 4096) == digestOf (sliceAt d 0x20 64)

/-- What the header says of an image that verifies. -/
def imageOf (d : Bytes) : Image :=
  { digest := sha512 d, major := leAt d 4 2, minor := leAt d 6 2, svn := leAt d 8 4, build := BitVec.ofNat 64 (leAt d 0x18 8), ok := true }

/-! ## Staging (R555) -/

/-- The last byte of an image has arrived: verified, it is the staged image; otherwise the region is erased. -/
def State.stageImage (s : State) (d : Bytes) (verifies : Bool) : State :=
  ({ s with fw := { s.fw with staged := if s.imageOk d verifies then some (imageOf d) else none, xferOpen := false, xfer := [] } } : State).raise
    { code := 0x0C0B, unit := 12 }

/-- The recovery loader starts a cold start with the image that it has put into the image region (R554). -/
def State.recoverWith (s : State) (i : Image) : State := ({ s with fw := { s.fw with image := i } } : State).coldReset

/-- The recovery loader takes a new image: it is written only if it verifies. With a bad factory area it takes none (R549). -/
def State.recoveryImage (s : State) (d : Bytes) (verifies : Bool) : State :=
  if s.factory.ok && s.imageOk d verifies then s.recoverWith (imageOf d) else s

/-- May the staged image be copied: there is one, and it still verifies? -/
def State.stagedOk (s : State) : Option Image := s.fw.staged.filter fun i => i.ok && s.fw.svnFloor ≤ i.svn

/-- An image has arrived whole, in service or in the recovery loader. -/
def State.imageIn (s : State) (d : Bytes) (verifies : Bool) : State :=
  if s.board.stage == .recovery then
    (if s.factory.ok && s.imageOk d verifies then (s.recoverWith (imageOf d)).emit (.http 202 []) else s.emit (.http 400 []))
  else (s.stageImage d verifies).emit (.http 202 [])

/-- A request to the Redfish UpdateService, which the recovery loader serves too (R554). -/
def mgmtUpdate (who : Client) (s : State) (f : State → State) : Host.Outcome State Fault Refusal :=
  whenTurn s.mgmtUp s fun s => s.manage who roleConfig f

/-- FW_STAGE (R555): a transfer in progress makes it busy. -/
def execFwStage (who : Client) (image : Bytes) (verifies : Bool) (s : State) : Host.Outcome State Fault Refusal :=
  mgmtUpdate who s fun s => if s.fw.xferOpen then s.emit (.http 503 []) else s.imageIn image verifies

/-! ## Activation (R556, R557) -/

/-- Is an activation in order now? -/
def State.mayActivate (s : State) : Bool :=
  !s.fw.xferOpen && s.fw.activation.isNone && s.stagedOk.any fun i =>
    i.major == s.fw.running.major || !s.funcOpen fun _ => true

/-- Accept an activation: the copy into the image region begins. -/
def State.activate (s : State) (turn : Option Nat) : State := { s with fw := { s.fw with activation := some { turn } } }

/-- FW_ACTIVATE_REQUEST (R556); in the recovery loader it copies the staged image (R554). -/
def execFwActivateRequest (who : Client) (turn : Nat) (s : State) : Host.Outcome State Fault Refusal :=
  mgmtUpdate who s fun s =>
    if s.board.stage == .recovery then
      match s.stagedOk with
      | some i => if s.factory.ok then (s.recoverWith i).emit (.http 202 []) else s.emit (.http 400 [])
      | none => s.emit (.http 400 [])
    else if s.mayActivate then (s.activate (some turn)).emit (.http 202 []) else s.emit (.http 409 [])

/-- FW_COPY_DONE (R556, R557): the copy verifies, or the activation is abandoned and the region is written again from the staged image. -/
def execFwCopyDone (ok : Bool) (s : State) : Host.Outcome State Fault Refusal :=
  when (s.mgmtUp && s.board.stage != .recovery && s.fw.activation.any fun a => !a.copied) s fun s =>
    let image := s.fw.staged.getD s.fw.image
    if ok then
      { s with fw := { s.fw with image, activation := s.fw.activation.map fun a => { a with copied := true } } }
    else ({ s with fw := { s.fw with image, activation := none } } : State).verifyFail 4

/-- RECOVERY_IMAGE_WRITE (R554). -/
def execRecoveryImageWrite (image : Bytes) (verifies : Bool) (s : State) : Host.Outcome State Fault Refusal :=
  whenTurn (s.board.stage == .recovery) s fun s => s.recoveryImage image verifies

/-- RECOVERY_COPY_STAGED (R554). -/
def execRecoveryCopyStaged (s : State) : Host.Outcome State Fault Refusal :=
  whenTurn (s.board.stage == .recovery && s.factory.ok) s fun s =>
    match s.stagedOk with
    | some i => s.recoverWith i
    | none => s

/-! ## The CXL mailbox on F0 (R310, R555, R556). Return codes and layouts of payloads are those of CXL 3.1 (log entry 34). -/

/-- A mailbox command: firmware or the recovery loader answers it. -/
def mailbox (s : State) (f : State → State) : Host.Outcome State Fault Refusal :=
  whenTurn (s.ioOpen && s.board.stage != .off && s.board.stage != .rom && s.board.stage != .tripped) s f

/-- Return codes: success, invalid input, unsupported, busy, transfer out of order, invalid slot. -/
def mbOk : Nat := 0
/-- See `mbOk`. -/
def mbInvalid : Nat := 2
/-- See `mbOk`. -/
def mbUnsupported : Nat := 3
/-- See `mbOk`. -/
def mbBusy : Nat := 6
/-- See `mbOk`. -/
def mbOrder : Nat := 9
/-- See `mbOk`. -/
def mbSlot : Nat := 0x0B

/-- IDENTIFY (R310): vendor, device, and the device identity of R497. -/
def execIdentify (s : State) : Host.Outcome State Fault Refusal :=
  mailbox s fun s => s.emit (.mailbox mbOk (toLe 2 Config.vendor.toNat ++ toLe 2 0x4800 ++ List.replicate 4 0 ++ toLe 8 s.factory.device.toNat))

/-- One slot of GET_FW_INFO: the version of its image as 16 bytes. -/
def slotInfo (i : Option Image) : Bytes :=
  match i with
  | some i => toLe 2 i.major ++ toLe 2 i.minor ++ toLe 4 i.svn ++ toLe 8 i.build.toNat
  | none => List.replicate 16 0

/-- GET_FW_INFO (R555): two slots, 1 running and 2 staged, with the slot that an activation makes active next. -/
def execGetFwInfo (s : State) : Host.Outcome State Fault Refusal :=
  mailbox s fun s =>
    let next : Nat := if s.fw.activation.isSome then 2 else 0
    s.emit (.mailbox mbOk (toLe 1 2 ++ toLe 1 (1 + 8 * next) ++ toLe 1 1 ++ List.replicate 13 0 ++ slotInfo (some s.fw.running) ++ slotInfo s.fw.staged))

/-- A transfer whose last part has arrived. -/
def State.endTransfer (s : State) (d : Bytes) (verifies : Bool) : State :=
  if s.board.stage == .recovery then
    let ok := s.factory.ok && s.imageOk d verifies
    let s : State := { s with fw := { s.fw with xferOpen := false, xfer := [] } }
    if ok then (s.recoverWith (imageOf d)).emit (.mailbox mbOk []) else s.emit (.mailbox mbInvalid [])
  else (s.stageImage d verifies).emit (.mailbox mbOk [])

/-- A part of a transfer in progress: it must follow on the bytes that have arrived. -/
def State.transferPart (s : State) (offset : Nat) (d : Bytes) (last verifies : Bool) : State :=
  if !s.fw.xferOpen then s.emit (.mailbox mbInvalid [])
  else if 128 * offset != s.fw.xfer.length then s.emit (.mailbox mbOrder [])
  else if last then s.endTransfer (s.fw.xfer ++ d) verifies
  else ({ s with fw := { s.fw with xfer := s.fw.xfer ++ d } } : State).emit (.mailbox mbOk [])

/-- TRANSFER_FW (R555): action 0 whole image, 1 first part, 2 a further part, 3 last part, 4 abort; the offset counts units of 128 bytes. -/
def execTransferFw (action slot offset : Nat) (d : Bytes) (verifies : Bool) (s : State) : Host.Outcome State Fault Refusal :=
  mailbox s fun s =>
    if slot != 2 && action != 4 then s.emit (.mailbox mbSlot [])
    else match action with
      | 0 => if s.fw.xferOpen then s.emit (.mailbox mbBusy []) else s.endTransfer d verifies
      | 1 => if s.fw.xferOpen then s.emit (.mailbox mbBusy [])
             else if offset != 0 then s.emit (.mailbox mbOrder [])
             else ({ s with fw := { s.fw with xferOpen := true, xfer := d } } : State).emit (.mailbox mbOk [])
      | 2 => s.transferPart offset d false verifies
      | 3 => s.transferPart offset d true verifies
      | 4 => ({ s with fw := { s.fw with xferOpen := false, xfer := [] } } : State).emit (.mailbox mbOk [])
      | _ => s.emit (.mailbox mbInvalid [])

/-- ACTIVATE_FW (R556): mode 0 online, at the next boundary; 1 on cold reset. In the recovery loader either copies the staged image (R554). -/
def execActivateFw (mode slot : Nat) (s : State) : Host.Outcome State Fault Refusal :=
  mailbox s fun s =>
    if slot != 2 then s.emit (.mailbox mbSlot [])
    else if 2 ≤ mode then s.emit (.mailbox mbInvalid [])
    else if s.board.stage == .recovery then
      match s.stagedOk with
      | some i => if s.factory.ok then (s.recoverWith i).emit (.mailbox mbOk []) else s.emit (.mailbox mbInvalid [])
      | none => s.emit (.mailbox mbInvalid [])
    else if s.mayActivate then (s.activate (if mode = 0 then some 0 else none)).emit (.mailbox mbOk []) else s.emit (.mailbox mbBusy [])

/-- The Command Effects Log, the one log that CXL requires of a device; its identifier as a number. -/
def celUuid : Nat := 0x0da9c0b5bf414b788f7996b1623b3f17

/-- GET_SUPPORTED_LOGS (R310). -/
def execGetSupportedLogs (s : State) : Host.Outcome State Fault Refusal :=
  mailbox s fun s => s.emit (.mailbox mbOk (toLe 2 1 ++ List.replicate 6 0 ++ (toLe 16 celUuid).reverse ++ toLe 4 24))

/-- The log has one entry of four bytes for each mailbox command; the effects are free values (log entry 34). -/
def celBytes (n : Nat) : Bytes := (List.range 24).map fun i => Config.freeByte (n + i)

/-- GET_LOG (R310). -/
def execGetLog (uuid off len : Nat) (s : State) : Host.Outcome State Fault Refusal :=
  mailbox s fun s =>
    if uuid != celUuid || 24 < off + len then s.emit (.mailbox mbInvalid [])
    else ({ s with fresh := s.fresh + 24 } : State).emit (.mailbox mbOk (((celBytes s.fresh).drop off).take len))

end Sys2Proof.Machine
end

