-- ==== Sys2Proof/Machine/Spdm.lean ====
section
/-! DEFINITION. SPDM as responder, over DOE on F0 and over the management network (R497, R499, R500, R522). Message codes are those of SPDM 1.2
and 1.3 (log entry 35). -/

namespace Sys2Proof.Machine

/-! ## Measurements (R500) -/

/-- The number of a role. -/
def roleNo : Role → Nat
  | .admin => 0
  | .operator => 1
  | .keysvc => 2
  | .reader => 3

/-- The settings that measurement 5 covers. -/
def State.secConfig (s : State) : List Nat :=
  let pair : BitVec 64 × Digest → List Nat := fun e => [e.1.toNat, e.2.toNat]
  let ident : Nat × List Role → List Nat := fun i => i.1 :: i.2.length :: i.2.map roleNo
  [s.net.layout, bit1 s.params.uniform, s.params.wU, bit1 s.gov.levelMode, s.sec.allow.length] ++ s.sec.allow.flatMap pair ++
    [s.sec.anchors.length] ++ s.sec.anchors ++ [s.sec.idents.length] ++ s.sec.idents.flatMap ident

/-- A measurement by its index: 3 the running image, 5 the configuration, 6 the staged image or 64 zero bytes. -/
def State.measurement (s : State) (i : Nat) : Bytes :=
  match i with
  | 3 => digestBytes s.fw.running.digest
  | 5 => fitTo 64 (Config.configMeasured s.secConfig)
  | 6 => match s.fw.staged with
    | some i => digestBytes i.digest
    | none => List.replicate 64 0
  | n => fitTo 64 (Config.measured n)

/-- A measurement block: index, DMTF form, raw length, and the digest. -/
def State.measureBlock (s : State) (i : Nat) : Bytes := toLe 1 i ++ toLe 1 1 ++ toLe 2 67 ++ toLe 1 0 ++ toLe 2 64 ++ s.measurement i

/-! ## Connections (R499) -/

/-- How far the connection of a transport has come: 1 version, 2 capabilities, 3 algorithms. -/
def State.spdmStage (s : State) (t : SpdmTransport) : Nat :=
  match t with
  | .doe => s.host.spdmDoe
  | .network => s.host.spdmNet

/-- Change it. -/
def State.setSpdm (s : State) (t : SpdmTransport) (n : Nat) : State :=
  match t with
  | .doe => { s with host := { s.host with spdmDoe := n } }
  | .network => { s with host := { s.host with spdmNet := n } }

/-- Is there a responder on a transport: AK exists, and the transport is up; the recovery loader offers none (R554)? -/
def State.spdmUp (s : State) (t : SpdmTransport) : Bool :=
  s.sec.akExists && s.mgmtUp && s.board.stage != .recovery && s.board.stage != .tripped && match t with
    | .doe => s.linkUp
    | .network => true

/-- An SPDM request. -/
def spdm (t : SpdmTransport) (s : State) (f : State → State) : Host.Outcome State Fault Refusal := when (s.spdmUp t) s f

/-- Error codes: invalid request, unexpected request, unsupported request, session required. -/
def spdmError (s : State) (code : Nat) : State := s.emit (.spdm 0x7F [BitVec.ofNat 8 code])

/-- Answer a request that needs a connection at some stage; before it the request is unexpected. -/
def State.atStage (s : State) (t : SpdmTransport) (n : Nat) (f : State → State) : State := if n ≤ s.spdmStage t then f s else spdmError s 0x04

/-- GET_VERSION (R499): the transport's own connection begins anew; versions 1.2 and 1.3. -/
def execGetVersion (t : SpdmTransport) (s : State) : Host.Outcome State Fault Refusal :=
  spdm t s fun s =>
    let s := s.setSpdm t 1
    let s : State := if t = .doe then { s with host := { s.host with session := false, handshake := false } } else s
    s.emit (.spdm 0x04 (toLe 1 0 ++ toLe 1 2 ++ toLe 2 0x1200 ++ toLe 2 0x1300))

/-- The capability flags CERT, CHAL, MEAS with signature, and KEY_EX. -/
def spdmCaps : Nat := 0x2 + 0x4 + 0x10 + 0x200

/-- GET_CAPABILITIES (R499). -/
def execGetCapabilities (t : SpdmTransport) (s : State) : Host.Outcome State Fault Refusal :=
  spdm t s fun s => s.atStage t 1 fun s => (s.setSpdm t (max 2 (s.spdmStage t))).emit (.spdm 0x61 (toLe 4 spdmCaps))

/-- NEGOTIATE_ALGORITHMS (R499): an offer of RSASSA-4096 (0) or RSAPSS-4096 (1) and of SHA-512 (2) is answered with the selection. -/
def execNegotiateAlgorithms (t : SpdmTransport) (offer : List Nat) (s : State) : Host.Outcome State Fault Refusal :=
  spdm t s fun s => s.atStage t 2 fun s =>
    let asym : Option Nat := if offer.contains 1 then some 1 else if offer.contains 0 then some 0 else none
    match asym with
    | some a => if offer.contains 2 then (s.setSpdm t 3).emit (.spdm 0x63 [BitVec.ofNat 8 a, 2]) else spdmError s 0x01
    | none => spdmError s 0x01

/-- GET_DIGESTS (R499): the digest of the chain in slot 0. -/
def execGetDigests (t : SpdmTransport) (s : State) : Host.Outcome State Fault Refusal :=
  spdm t s fun s => s.atStage t 3 fun s => s.emit (.spdm 0x01 (digestBytes (sha512 s.akCert)))

/-- GET_CERTIFICATE (R497, R499): a part of the chain up to the AK certificate, and how much of it remains. -/
def execGetCertificate (t : SpdmTransport) (slot off len : Nat) (s : State) : Host.Outcome State Fault Refusal :=
  spdm t s fun s => s.atStage t 3 fun s =>
    if slot != 0 || s.akCert.length < off then spdmError s 0x01
    else
      let part := (s.akCert.drop off).take len
      s.emit (.spdm 0x02 (toLe 2 part.length ++ toLe 2 (s.akCert.length - off - part.length) ++ part))

/-- A nonce of the entropy source (R498). -/
def State.spdmNonce (s : State) : State × Bytes := ({ s with fresh := s.fresh + 1 }, fitTo 32 (Config.entropy 96 s.fresh))

/-- CHALLENGE (R499): answered with a signature by AK over both nonces. -/
def execChallenge (t : SpdmTransport) (slot : Nat) (nonce : Bytes) (s : State) : Host.Outcome State Fault Refusal :=
  spdm t s fun s => s.atStage t 3 fun s =>
    if slot != 0 then spdmError s 0x01
    else
      let r := s.spdmNonce
      let d := digestBytes (sha512 s.akCert) ++ r.2
      r.1.emit (.spdm 0x03 (d ++ fitTo 512 (s.akSign (d ++ nonce))))

/-- GET_MEASUREMENTS (R499, R500): index 0 asks for their number, 1 to 6 for one, 0xFF for all; signed by AK. -/
def execGetMeasurements (t : SpdmTransport) (index : Nat) (nonce : Bytes) (s : State) : Host.Outcome State Fault Refusal :=
  spdm t s fun s => s.atStage t 3 fun s =>
    let l := if index = 0 then [] else if index = 0xFF then [1, 2, 3, 4, 5, 6] else [index]
    if 7 ≤ index && index != 0xFF then spdmError s 0x01
    else
      let r := s.spdmNonce
      let d := toLe 1 (if index = 0 then 6 else l.length) ++ l.flatMap s.measureBlock ++ r.2
      r.1.emit (.spdm 0x60 (d ++ fitTo 512 (s.akSign (d ++ nonce))))

/-- KEY_EXCHANGE (R499): sessions over DOE on F0 only. -/
def execKeyExchange (t : SpdmTransport) (f : Nat) (dh : Bytes) (s : State) : Host.Outcome State Fault Refusal :=
  spdm t s fun s => s.atStage t 3 fun s =>
    if t = .network || f != 0 then spdmError s 0x07
    else
      let r := s.spdmNonce
      let own := fitTo 512 (Config.entropy 97 s.fresh)
      ({ r.1 with host := { r.1.host with handshake := true, session := false } } : State).emit
        (.spdm 0x64 (own ++ r.2 ++ fitTo 512 (s.akSign (dh ++ own ++ r.2))))

/-- FINISH (R499): with the requester's verification data in order, the session is open. -/
def execFinish (t : SpdmTransport) (ok : Bool) (s : State) : Host.Outcome State Fault Refusal :=
  spdm t s fun s =>
    if t = .network || !s.host.handshake then spdmError s 0x04
    else
      let s : State := { s with host := { s.host with handshake := false, session := ok } }
      if ok then s.emit (.spdm 0x65 []) else spdmError s 0x06

/-- END_SESSION (R499). -/
def execEndSession (t : SpdmTransport) (s : State) : Host.Outcome State Fault Refusal :=
  spdm t s fun s =>
    if t = .network || !s.host.session then spdmError s 0x0B
    else ({ s with host := { s.host with session := false } } : State).emit (.spdm 0x6C [])

end Sys2Proof.Machine
end

