-- ==== Sys2Proof/Machine/Stalls.lean ====
section
/-! DEFINITION. Stalled accesses of a core: which slots they wait for, the states of its engines, deadlines, deadlock (R143 to R149,
R206), and the passing of time (R31). -/

namespace Sys2Proof.Machine

/-! ## What an access waits for -/

/-- The lowest slot of a sluice word that fails its check, unless the access faults there instead (R143). -/
def State.waitsOn (s : State) (c : Nat) (u : Sluice) (write : Bool) : Option Nat :=
  match s.sluiceCheck c u write with
  | .stall n => some n
  | _ => none

/-- The slot that an outcome of a check names as not ready, for an access that stalls. -/
def Checked.slot : Checked → Option Nat
  | .stall n => some n
  | _ => none

/-- The slot of a stalled instruction of the control core, and whether it writes (R212, R227); none for a unit instruction, which is
stalled on a full queue. -/
def State.controlSlot (s : State) (c : Nat) (t : Stall) : Option (Sluice × Bool) :=
  let one : Sluice := { mode := 1, count := 1, first := s.slotNo c t.word }
  if t.opc = 0x50 then some (fSluice t.word, false)
  else if t.opc = 0x51 then some (fSluice t.word, true)
  else if t.opc = 0x71 then some (one, true)
  else if t.opc = 0x72 then some (one, false)
  else if t.opc = 0x73 then some (one, !bitAt t.word 44)
  else none

/-- The slot that the access with a key of `stallTicks` waits for, and the code offset of its instruction. -/
def State.accessWaits (s : State) (c key : Nat) : Option (Nat × Nat) :=
  let k := s.core c
  if key = 0 then
    (k.stall.bind fun t => (s.controlSlot c t).bind fun u => s.waitsOn c u.1 u.2).map fun n => (n, k.pc)
  else if key = 1 || key = 20 then
    (List.range 8).findSome? fun i => match k.leat[i]? with
      | none => none
      | some o => if (o.kind == 1) == (key == 20) && o.started && leatEligible k.leat i then
          (s.leatCheck c o).slot.map fun n => (n, o.codeOff) else none
  else if key = 2 then
    match k.vq with
    | [] => none
    | v :: _ => (s.vecCheck c v).slot.map fun n => (n, v.codeOff)
  else if key = 3 then
    match findAt (fun (o : RemoteOp) => !o.sent) k.remotes with
    | none => none
    | some (_, o) => ((s.lcoreOf c).lslCheck (rblkOf o.block)).slot.map fun n => (n, o.codeOff)
  else if key < 12 then
    let y := s.array c (key - 4)
    match y.queue[y.started]? with
    | none => none
    | some q =>
      let p := passOf q.block
      if p.needsShift && (y.slot y.next).use == .empty then (s.preCheck c p).slot.map fun n => (n, q.codeOff)
      else if y.startReady p then (s.fillCheck c p).slot.map fun n => (n, q.codeOff)
      else none
  else
    let y := s.array c (key - 12)
    match y.queue with
    | [] => none
    | q :: _ =>
      if (y.slot (y.slotOfEntry 0)).use == .landed then (s.waitsOn c (passOf q.block).slDrain true).map fun n => (n, q.codeOff)
      else none

/-- The keys of `stallTicks` that an engine's accesses have. -/
def engineKeys : Engine → List Nat
  | .control => [0]
  | .leat => [1, 20]
  | .vector => [2]
  | .array a => [12 + a, 4 + a]
  | .window => [3]

/-! ## States of the engines (R147) -/

/-- The states of R147; SLUICE names the slot. -/
inductive EngineState where
  | busy | remote | sluice (slot : Nat) | idle
  deriving DecidableEq, Repr

/-- Does an open window of the context of core c, on this core, permit remote updates to a slot (R147, R404)? -/
def State.slotRemote (s : State) (c slot : Nat) : Bool :=
  match s.ownerOf c with
  | none => false
  | some (x, k) => (s.ctx x).windows.any fun e =>
      e.2.kind == 0 && e.2.core == k && e.2.ops.testBit 3 && e.2.closing.isNone &&
        e.2.base < 4096 * (slot + 1) && 4096 * slot < e.2.base + e.2.bytes

/-- The state of an engine whose accesses with these keys may be stalled, and which is otherwise at work, or has nothing queued. -/
def State.stalledState (s : State) (c : Nat) (keys : List Nat) (works queued : Bool) : EngineState :=
  if works then .busy
  else match keys.filterMap (s.accessWaits c) with
    | [] => if queued then .busy else .idle
    | w :: r =>
      let n := r.foldl (fun n v => min n v.1) w.1
      if s.slotRemote c n then .remote else .sluice n

/-- The state of an engine other than the control core. -/
def State.unitState (s : State) (c : Nat) (e : Engine) : EngineState :=
  let k := s.core c
  match e with
  | .leat =>
    let waits := fun i => match k.leat[i]? with
      | some o => o.started && (s.leatCheck c o).slot.isSome
      | none => true
    s.stalledState c [1, 20] ((List.range 8).any fun i => leatEligible k.leat i && !waits i) (!k.leat.isEmpty)
  | .vector => s.stalledState c [2] false (!k.vq.isEmpty)
  | .array a =>
    let y := s.array c a
    let at_work := fun (t : TileSlot) => t.use == .pass || t.use == .draining || t.use == .abandoned
    s.stalledState c [12 + a, 4 + a] (at_work y.slot0 || at_work y.slot1) (!y.queue.isEmpty)
  | .window => s.stalledState c [3] (k.remotes.any fun o => o.sent) (!k.remotes.isEmpty)
  | .control => .idle

/-- The unit that an instruction is issued to, by opcode and word. -/
def unitOf (opc : Nat) (w : Word) : Engine :=
  if opc = 0x80 then .array (fArray w)
  else if 0x90 ≤ opc && opc ≤ 0x92 then .leat
  else if opc = 0xF0 then .window
  else .vector

/-- The scalar registers that an instruction reads (R209, R210, R212, R222, R227). -/
def sourceRegs (w : Word) : List Nat :=
  let o := opOf w
  if o ≤ 0x12 then [fRa w, fRb w]
  else if 0x40 ≤ o && o ≤ 0x45 then [fRd w, fRa w]
  else if o = 0x51 || o = 0x53 then [fRa w, fRd w]
  else if o ≤ 0x38 || o = 0x49 || o = 0x50 || o = 0x52 || o = 0x61 || (0x70 ≤ o && o ≤ 0x74) then [fRa w]
  else if o = 0x80 || (0x90 ≤ o && o ≤ 0x92) || o = 0xE8 || o = 0xE9 || o = 0xF0 then [fUra w]
  else if 0xE4 ≤ o && o ≤ 0xE6 then vmRegs w
  else if vecListed o && o != 0xE0 then v3Regs w
  else []

/-- The instruction at the PC of a core, as its kernel's image holds it. -/
def State.wordAt (s : State) (c : Nat) : Option Word :=
  (s.ownerOf c).bind fun o => ((s.ctx o.1).kernel (s.core c).handle).bind fun r =>
    (s.vpeek o.1 (r.image + r.codeOff + s.pc c) 8).map fun b => BitVec.ofNat 64 (ofLe b)

/-- Is the control core stalled on a register whose summary waits behind a vector access in state SLUICE, or is itself such an access (R176)? -/
def State.awaitsSummary (s : State) (c : Nat) : Bool :=
  match s.unitState c .vector, s.wordAt c with
  | .sluice _, some w => (sourceRegs w).any fun n => n != 0 && (s.core c).vq.any fun v => v.opc == 0xE0 && fRd v.word == n
  | _, _ => false

/-- The state of an engine of a core (R147, R176). A control core that has reached EXIT, or a precise fault, has nothing queued. -/
def State.engineState (s : State) (c : Nat) : Engine → EngineState
  | .control =>
    let k := s.core c
    match k.stall with
    | none => if k.exiting.isSome || k.draining || s.awaitsSummary c then .idle else .busy
    | some t =>
      match s.controlSlot c t with
      | some _ => s.stalledState c [0] false true
      | none => match s.unitState c (unitOf t.opc t.word) with
        | .sluice _ => .idle
        | _ => .busy
  | e => s.unitState c e

/-- The engines in the order of R148. -/
def engineOrder : List Engine :=
  [.control, .leat, .vector] ++ ((List.range 8).map fun a => .array a) ++ [.window]

/-- Is an access from outside to this core's slots accepted and in progress (R147)? -/
def State.slotsInUse (s : State) (c : Nat) : Bool :=
  match s.ownerOf c with
  | none => false
  | some (x, k) => s.fabric.inOps.any fun o =>
      o.ctx == x && ((Tab.opt (s.ctx x).windows o.window).any fun w => w.kind == 0 && w.core == k)

/-- Is a core deadlocked in this cycle (R147)? -/
def State.deadlocked (s : State) (c : Nat) : Bool :=
  let l := engineOrder.map fun e => s.engineState c e
  l.all (fun e => e != .busy && e != .remote) && l.any (fun e => e != .idle) && !s.slotsInUse c

/-- The entries of the DEADLOCK record (R148). -/
def State.deadEntries (s : State) (c : Nat) : List (Nat × Nat) :=
  engineOrder.zipIdx.filterMap fun e => match s.engineState c e.1 with
    | .sluice n => some (n, e.2 * 2 ^ 28 + n * 2 ^ 16 + ((s.lcoreOf c).slot n).word)
    | _ => none

/-- Twelve entries of 4 bytes in the record's six values of 8 bytes; an unused entry is all ones (R468). -/
def packEntries (l : List Nat) : List Nat :=
  (List.range 6).map fun i => l.getD (2 * i) 0xFFFFFFFF + 2 ^ 32 * l.getD (2 * i + 1) 0xFFFFFFFF

/-! ## Time -/

/-- One tick of a core that runs: each stalled access measures it, and the deadlock without a break (R146, R147). -/
def State.countStalls (s : State) (c : Nat) (k : CoreSt) : CoreSt :=
  if !s.coreOn c then k
  else { k with
    stallTicks := (List.range 21).foldl (fun (t : Tab Nat) key =>
      if (s.accessWaits c key).isSome then Tab.upd t 0 key (· + 1) else Tab.del t key) k.stallTicks
    deadTicks := if s.deadlocked c then k.deadTicks + 1 else 0 }

/-- The phase after one more tick: it rises by one while the unit produces boundaries, and stops at 2^32 - 1 (R31, R33). -/
def TurnUnit.tickPhase (t : TurnUnit) : TurnUnit :=
  { t with phase := if t.st.counts && t.phase != BitVec.allOnes 32 then t.phase + 1 else t.phase }

/-- One 10 ns tick of the reference oscillator (R31; log entry 3). -/
def tick (s : State) : State :=
  { s with
    now := s.now + 1
    turn := s.turn.tickPhase
    cores := s.cores.map fun e => (e.1, s.countStalls e.1 e.2)
    out := [] }

/-! ## The commands -/

/-- Issue the stalled instruction of the control core again (R143, R206). -/
def State.retryControl (s : State) (c : Nat) (t : Stall) : State :=
  let s := s.modCore c fun k => { k with stall := none }
  let w := t.word
  if t.opc = 0x50 then bodyLds c w s
  else if t.opc = 0x51 then bodySts c w s
  else if t.opc = 0x71 then bodyUpdate 0x71 true c w s
  else if t.opc = 0x72 then bodyUpdate 0x72 false c w s
  else if t.opc = 0x73 then bodySwait c w s
  else if t.opc = 0x80 then bodyPass c w s
  else if t.opc = 0x90 then bodyLeat 0x90 0 c w s
  else if t.opc = 0x91 then bodyLeat 0x91 1 c w s
  else if t.opc = 0x92 then bodyLeat 0x92 2 c w s
  else if t.opc = 0xF0 then bodyRemote c w s
  else if t.opc = 0xE8 || t.opc = 0xE9 then bodyComb t.opc c w s
  else if t.opc = 0xE0 then bodySumm c w s
  else if 0xE4 ≤ t.opc && t.opc ≤ 0xE6 then bodyVm t.opc c w s
  else bodyV3 t.opc c w s

/-- Entries free in the queue of a unit (R206). -/
def State.queueRoom (s : State) (c : Nat) : Engine → Bool
  | .array a => (s.array c a).queue.length < 4
  | .leat => (s.core c).leat.length < 8
  | .vector => (s.core c).vq.length < 16
  | .window => (s.core c).remotes.length < 16
  | .control => false

/-- UNIT_QUEUE_ACCEPT (R206): a unit instruction stalled on a full queue leaves the control core once an entry is free. The cycles stalled
on a full vector queue are counted (R188). -/
def execUnitQueueAccept (c cycles : Nat) (s : State) : Host.Outcome State Fault Refusal :=
  match (s.core c).stall with
  | none => idle s
  | some t =>
    when (s.coreOn c && (s.controlSlot c t).isNone && s.queueRoom c (unitOf t.opc t.word)) s fun s =>
      (if unitOf t.opc t.word = .vector then s.bumpCore c 14 cycles else s).retryControl c t

/-- Has an engine an access at its head that could now start: queued, and waiting for no slot? -/
def State.headReady (s : State) (c : Nat) : Engine → Bool
  | .control => match (s.core c).stall with
    | some t => (s.controlSlot c t).isSome && (s.accessWaits c 0).isNone
    | none => false
  | .leat => (List.range 8).any fun i => s.leatMoves c i
  | .vector => !(s.core c).vq.isEmpty && (s.accessWaits c 2).isNone
  | .window => (s.core c).remotes.any (fun o => !o.sent) && (s.accessWaits c 3).isNone
  | .array a =>
    let y := s.array c a
    a < 8 && (((y.slot (y.slotOfEntry 0)).use == .landed && !y.queue.isEmpty && (s.accessWaits c (12 + a)).isNone) ||
      (match y.queue[y.started]? with
       | none => false
       | some q =>
         let p := passOf q.block
         ((p.needsShift && (y.slot y.next).use == .empty) || y.startReady p) && (s.accessWaits c (4 + a)).isNone))

/-- Start the access of an array whose check passes: its drain, its preload, or its next pass. -/
def State.arrayGo (s : State) (c a : Nat) : State :=
  let y := s.array c a
  let landed := (y.slot (y.slotOfEntry 0)).use == .landed
  match y.queue, y.queue[y.started]? with
  | q :: _, n =>
    if landed && (s.accessWaits c (12 + a)).isNone then
      match s.sluiceCheck c (passOf q.block).slDrain true with
      | .notReady slot => s.passFault c a 0x0104 q slot
      | _ => (s.clearStall c (12 + a)).beginDrain c a (y.slotOfEntry 0) q none
    else
      match n with
      | none => s
      | some q =>
        let p := passOf q.block
        if p.needsShift && (y.slot y.next).use == .empty then
          match s.preCheck c p with
          | .notReady slot => s.passFault c a 0x0104 q slot
          | _ => (s.clearStall c (4 + a)).doPreload c a q y.next fun t => { t with use := .preload }
        else
          match s.fillCheck c p with
          | .notReady slot => s.passFault c a 0x0104 q slot
          | _ => (s.clearStall c (4 + a)).startPass c a q
  | [], _ => s

/-- SLUICE_CHECK_PASS (R143, R144, R153): a stalled access whose slots all pass starts, and makes its updates; the cycles for which it was
stalled are counted. -/
def execSluiceCheckPass (c : Nat) (e : Engine) (cycles : Nat) (s : State) : Host.Outcome State Fault Refusal :=
  when (s.coreOn c && s.headReady c e) s fun s =>
    let s := s.bumpCore c 4 cycles
    match e with
    | .control => match (s.core c).stall with
      | some t => (s.clearStall c 0).retryControl c t
      | none => s
    | .vector => vecDrain 17 c s
    | .window => s.remoteGo c
    | .leat => match (List.range 8).find? fun i => s.leatMoves c i, s.ownerOf c with
      | some i, some (x, _) => (match (s.core c).leat[i]? with
        | some o => s.leatGo c x i o
        | none => s)
      | _, _ => s
    | .array a => s.arrayGo c a

/-- UNIT and INDEX of an engine in a record (R467). -/
def engineUnit : Engine → Nat × Nat
  | .control => (1, 0)
  | .leat => (2, 0)
  | .vector => (3, 0)
  | .array a => (4, a)
  | .window => (5, 0)

/-- The sluice deadline of the context that a core serves (R146). -/
def State.sluiceDeadline (s : State) (c : Nat) : Nat :=
  match s.ownerOf c with
  | some (x, _) => (s.ctx x).req.deadline
  | none => 0

/-- The access of an engine whose stall has passed the deadline: its slot and code offset. -/
def State.overdue (s : State) (c : Nat) (e : Engine) : Option (Nat × Nat) :=
  (engineKeys e).findSome? fun key =>
    if s.sluiceDeadline c < Tab.look (s.core c).stallTicks 0 key then s.accessWaits c key else none

/-- SLUICE_TIMEOUT (R146, R149): the kernels of the command stop, and it completes as TIMED_OUT. -/
def execSluiceTimeout (c : Nat) (e : Engine) (s : State) : Host.Outcome State Fault Refusal :=
  match s.overdue c e with
  | none => idle s
  | some (slot, off) =>
    when (s.coreOn c && (s.ownerOf c).isSome) s fun s =>
      (s.bumpCore c 5 1).fault c (engineUnit e).1 (engineUnit e).2 0x0201 0x04 (e == .control) (some off) slot []

/-- DEADLOCK (R147 to R149): the kernels of the command stop, and it completes as DEADLOCK. -/
def execDeadlock (c : Nat) (s : State) : Host.Outcome State Fault Refusal :=
  when (s.coreOn c && (s.ownerOf c).isSome && s.deadlocked c && s.params.deadlock < (s.core c).deadTicks) s fun s =>
    let l := s.deadEntries c
    (s.bumpCore c 6 1).fault c 0 0 0x0202 0x0F false none ((l.map fun e => e.1).headD 0) (packEntries (l.map fun e => e.2))

end Sys2Proof.Machine
end

