-- ==== Sys2Proof/Machine/Dispatch.lean ====
section
/-! DEFINITION. The dispatch of the commands: one arm per constructor of `Instr`, each one direct call of its meaning. -/

namespace Sys2Proof.Machine

def exec (i : Instr) (s : State) : Host.Outcome State Fault Refusal :=
  match i with
  | .coldStart imageOk fieldOk hot failedChannels badColumns badLanes laserFault => Sys2Proof.Machine.execColdStart imageOk fieldOk hot failedChannels badColumns badLanes laserFault s
  | .inputRemoved => Sys2Proof.Machine.execInputRemoved s
  | .ready found => Sys2Proof.Machine.execReady found s
  | .boardResetAssert => Sys2Proof.Machine.execBoardResetAssert s
  | .hotReset => Sys2Proof.Machine.execHotReset s
  | .hostLinkDownExpiry => Sys2Proof.Machine.execHostLinkDownExpiry s
  | .hostLinkRetrain words => Sys2Proof.Machine.execHostLinkRetrain words s
  | .mgmtWarmReset who => Sys2Proof.Machine.execMgmtWarmReset who s
  | .mgmtColdReset who => Sys2Proof.Machine.execMgmtColdReset who s
  | .hubFatal entropy => Sys2Proof.Machine.execHubFatal entropy s
  | .flr f => Sys2Proof.Machine.execFlr f s
  | .keeperEntry cause hung => Sys2Proof.Machine.execKeeperEntry cause hung s
  | .mgmtKeeperRequest who enter => Sys2Proof.Machine.execMgmtKeeperRequest who enter s
  | .recoveryPeriodExpiry x => Sys2Proof.Machine.execRecoveryPeriodExpiry x s
  | .coreHang c => Sys2Proof.Machine.execCoreHang c s
  | .quadrantReset q who hung failedChannels => Sys2Proof.Machine.execQuadrantReset q who hung failedChannels s
  | .regFault d => Sys2Proof.Machine.execRegFault d s
  | .dieTrip => Sys2Proof.Machine.execDieTrip s
  | .inputOutOfRange high => Sys2Proof.Machine.execInputOutOfRange high s
  | .inputRecovered => Sys2Proof.Machine.execInputRecovered s
  | .powerBrakeAssert => Sys2Proof.Machine.execPowerBrakeAssert s
  | .powerBrakeDeassert => Sys2Proof.Machine.execPowerBrakeDeassert s
  | .turnBoundary e found upsets => Sys2Proof.Machine.execTurnBoundary e found upsets s
  | .commandRelease h hdrs => Sys2Proof.Machine.execCommandRelease h hdrs s
  | .deadlineExpiry h => Sys2Proof.Machine.execDeadlineExpiry h s
  | .weightKeyExpiry d => Sys2Proof.Machine.execWeightKeyExpiry d s
  | .sealInterval => Sys2Proof.Machine.execSealInterval s
  | .energyUnreconciled => Sys2Proof.Machine.execEnergyUnreconciled s
  | .energyReconciled => Sys2Proof.Machine.execEnergyReconciled s
  | .markEmit => Sys2Proof.Machine.execMarkEmit s
  | .phaseLimit => Sys2Proof.Machine.execPhaseLimit s
  | .mark p m => Sys2Proof.Machine.execMark p m s
  | .sourceSilence => Sys2Proof.Machine.execSourceSilence s
  | .holdoverLimit => Sys2Proof.Machine.execHoldoverLimit s
  | .ptpSync origin rx twoStep gm => Sys2Proof.Machine.execPtpSync origin rx twoStep gm s
  | .ptpAnnounce m => Sys2Proof.Machine.execPtpAnnounce m s
  | .ptpSyncTimeout => Sys2Proof.Machine.execPtpSyncTimeout s
  | .turnSourceSelect who turn c => Sys2Proof.Machine.execTurnSourceSelect who turn c s
  | .turnConflictClear who => Sys2Proof.Machine.execTurnConflictClear who s
  | .governorTick t => Sys2Proof.Machine.execGovernorTick t s
  | .droopDetect q => Sys2Proof.Machine.execDroopDetect q s
  | .droopRecover q cycles excess => Sys2Proof.Machine.execDroopRecover q cycles excess s
  | .dieTempSample quad hub => Sys2Proof.Machine.execDieTempSample quad hub s
  | .packageTempSample m t => Sys2Proof.Machine.execPackageTempSample m t s
  | .refreshRateFall m => Sys2Proof.Machine.execRefreshRateFall m s
  | .pacedRest => Sys2Proof.Machine.execPacedRest s
  | .heartbeat p => Sys2Proof.Machine.execHeartbeat p s
  | .fwHeartbeatLate p => Sys2Proof.Machine.execFwHeartbeatLate p s
  | .fwWatchdog p => Sys2Proof.Machine.execFwWatchdog p s
  | .hostLinkTrained flit256 width rate => Sys2Proof.Machine.execHostLinkTrained flit256 width rate s
  | .configRequest f off write => Sys2Proof.Machine.execConfigRequest f off write s
  | .mmioDoorbell write addr size v => Sys2Proof.Machine.execMmioDoorbell write addr size v s
  | .ringResume r v => Sys2Proof.Machine.execRingResume r v s
  | .doorbellSnoop r v => Sys2Proof.Machine.execDoorbellSnoop r v s
  | .doorbellPoll r v => Sys2Proof.Machine.execDoorbellPoll r v s
  | .snoopInvalid f addr => Sys2Proof.Machine.execSnoopInvalid f addr s
  | .atsInvalidation f addr len => Sys2Proof.Machine.execAtsInvalidation f addr len s
  | .cxlMemRead h len err => Sys2Proof.Machine.execCxlMemRead h len err s
  | .cxlMemWrite h d => Sys2Proof.Machine.execCxlMemWrite h d s
  | .cxlIoReadTimeout a => Sys2Proof.Machine.execCxlIoReadTimeout a s
  | .cxlCacheTimeout a => Sys2Proof.Machine.execCxlCacheTimeout a s
  | .cxlCacheErrorResponse a => Sys2Proof.Machine.execCxlCacheErrorResponse a s
  | .malformedTlp => Sys2Proof.Machine.execMalformedTlp s
  | .unexpectedCompletion => Sys2Proof.Machine.execUnexpectedCompletion s
  | .malformedCxlMessage => Sys2Proof.Machine.execMalformedCxlMessage s
  | .hostViral => Sys2Proof.Machine.execHostViral s
  | .hostIdeFail => Sys2Proof.Machine.execHostIdeFail s
  | .ideKm stream keys => Sys2Proof.Machine.execIdeKm stream keys s
  | .msixUnmask f v => Sys2Proof.Machine.execMsixUnmask f v s
  | .identify => Sys2Proof.Machine.execIdentify s
  | .getFwInfo => Sys2Proof.Machine.execGetFwInfo s
  | .transferFw action slot offset d verifies => Sys2Proof.Machine.execTransferFw action slot offset d verifies s
  | .activateFw mode slot => Sys2Proof.Machine.execActivateFw mode slot s
  | .getSupportedLogs => Sys2Proof.Machine.execGetSupportedLogs s
  | .getLog uuid off len => Sys2Proof.Machine.execGetLog uuid off len s
  | .getVersion t => Sys2Proof.Machine.execGetVersion t s
  | .getCertificate t slot off len => Sys2Proof.Machine.execGetCertificate t slot off len s
  | .challenge t slot nonce => Sys2Proof.Machine.execChallenge t slot nonce s
  | .getMeasurements t index nonce => Sys2Proof.Machine.execGetMeasurements t index nonce s
  | .keyExchange t f dh => Sys2Proof.Machine.execKeyExchange t f dh s
  | .descriptorFetch r d => Sys2Proof.Machine.execDescriptorFetch r d s
  | .descriptorReadRetry r d => Sys2Proof.Machine.execDescriptorReadRetry r d s
  | .completionWrite r ok => Sys2Proof.Machine.execCompletionWrite r ok s
  | .irqTimerExpiry r => Sys2Proof.Machine.execIrqTimerExpiry r s
  | .openContext h hdrs => Sys2Proof.Machine.execOpenContext h hdrs s
  | .closeContext h => Sys2Proof.Machine.execCloseContext h s
  | .loadGen h => Sys2Proof.Machine.execLoadGen h s
  | .unloadGen h => Sys2Proof.Machine.execUnloadGen h s
  | .setGen h => Sys2Proof.Machine.execSetGen h s
  | .loadTable h => Sys2Proof.Machine.execLoadTable h s
  | .openSeq h => Sys2Proof.Machine.execOpenSeq h s
  | .closeSeq h => Sys2Proof.Machine.execCloseSeq h s
  | .migrateSeq h => Sys2Proof.Machine.execMigrateSeq h s
  | .stepCmd h => Sys2Proof.Machine.execStepCmd h s
  | .launch h => Sys2Proof.Machine.execLaunch h s
  | .copyCmd h => Sys2Proof.Machine.execCopyCmd h s
  | .fill h => Sys2Proof.Machine.execFill h s
  | .openWindow h => Sys2Proof.Machine.execOpenWindow h s
  | .closeWindow h => Sys2Proof.Machine.execCloseWindow h s
  | .collective h => Sys2Proof.Machine.execCollective h s
  | .fenceCmd h => Sys2Proof.Machine.execFenceCmd h s
  | .waitTurn h => Sys2Proof.Machine.execWaitTurn h s
  | .query h => Sys2Proof.Machine.execQuery h s
  | .sealLedger h => Sys2Proof.Machine.execSealLedger h s
  | .scrub h => Sys2Proof.Machine.execScrub h s
  | .tableSlotWrite h => Sys2Proof.Machine.execTableSlotWrite h s
  | .genPagesFreed h => Sys2Proof.Machine.execGenPagesFreed h s
  | .seqMigrateApply h => Sys2Proof.Machine.execSeqMigrateApply h s
  | .scrubDone x => Sys2Proof.Machine.execScrubDone x s
  | .kernelCommandEnd h => Sys2Proof.Machine.execKernelCommandEnd h s
  | .spillCopyDone x sid => Sys2Proof.Machine.execSpillCopyDone x sid s
  | .spillReturnDone x sid folios => Sys2Proof.Machine.execSpillReturnDone x sid folios s
  | .placementBetweenBoundaries x => Sys2Proof.Machine.execPlacementBetweenBoundaries x s
  | .ctxReset v => Sys2Proof.Machine.execCtxReset v s
  | .mgmtContextReset who x => Sys2Proof.Machine.execMgmtContextReset who x s
  | .add c w => Sys2Proof.Machine.execAdd c w s
  | .sub c w => Sys2Proof.Machine.execSub c w s
  | .mul c w => Sys2Proof.Machine.execMul c w s
  | .mulhu c w => Sys2Proof.Machine.execMulhu c w s
  | .mulhs c w => Sys2Proof.Machine.execMulhs c w s
  | .divu c w => Sys2Proof.Machine.execDivu c w s
  | .divs c w => Sys2Proof.Machine.execDivs c w s
  | .remu c w => Sys2Proof.Machine.execRemu c w s
  | .rems c w => Sys2Proof.Machine.execRems c w s
  | .and c w => Sys2Proof.Machine.execAnd c w s
  | .or c w => Sys2Proof.Machine.execOr c w s
  | .xor c w => Sys2Proof.Machine.execXor c w s
  | .shl c w => Sys2Proof.Machine.execShl c w s
  | .shr c w => Sys2Proof.Machine.execShr c w s
  | .sar c w => Sys2Proof.Machine.execSar c w s
  | .rotl c w => Sys2Proof.Machine.execRotl c w s
  | .sltu c w => Sys2Proof.Machine.execSltu c w s
  | .slts c w => Sys2Proof.Machine.execSlts c w s
  | .addi c w => Sys2Proof.Machine.execAddi c w s
  | .andi c w => Sys2Proof.Machine.execAndi c w s
  | .ori c w => Sys2Proof.Machine.execOri c w s
  | .xori c w => Sys2Proof.Machine.execXori c w s
  | .shli c w => Sys2Proof.Machine.execShli c w s
  | .shri c w => Sys2Proof.Machine.execShri c w s
  | .sari c w => Sys2Proof.Machine.execSari c w s
  | .sltui c w => Sys2Proof.Machine.execSltui c w s
  | .sltsi c w => Sys2Proof.Machine.execSltsi c w s
  | .sethi c w => Sys2Proof.Machine.execSethi c w s
  | .beq c w => Sys2Proof.Machine.execBeq c w s
  | .bne c w => Sys2Proof.Machine.execBne c w s
  | .bltu c w => Sys2Proof.Machine.execBltu c w s
  | .bgeu c w => Sys2Proof.Machine.execBgeu c w s
  | .blts c w => Sys2Proof.Machine.execBlts c w s
  | .bges c w => Sys2Proof.Machine.execBges c w s
  | .jal c w => Sys2Proof.Machine.execJal c w s
  | .jalr c w => Sys2Proof.Machine.execJalr c w s
  | .lds c w => Sys2Proof.Machine.execLds c w s
  | .sts c w => Sys2Proof.Machine.execSts c w s
  | .ldm c w => Sys2Proof.Machine.execLdm c w s
  | .stm c w => Sys2Proof.Machine.execStm c w s
  | .urd c w => Sys2Proof.Machine.execUrd c w s
  | .uwr c w => Sys2Proof.Machine.execUwr c w s
  | .turnrd c w => Sys2Proof.Machine.execTurnrd c w s
  | .coreFence c w => Sys2Proof.Machine.execCoreFence c w s
  | .exitKernel c w => Sys2Proof.Machine.execExitKernel c w s
  | .trapret c w => Sys2Proof.Machine.execTrapret c w s
  | .sarm c w => Sys2Proof.Machine.execSarm c w s
  | .sfill c w => Sys2Proof.Machine.execSfill c w s
  | .sdrain c w => Sys2Proof.Machine.execSdrain c w s
  | .swait c w => Sys2Proof.Machine.execSwait c w s
  | .spoll c w => Sys2Proof.Machine.execSpoll c w s
  | .pass c w => Sys2Proof.Machine.execPass c w s
  | .lmove c w => Sys2Proof.Machine.execLmove c w s
  | .lstream c w => Sys2Proof.Machine.execLstream c w s
  | .lwalk c w => Sys2Proof.Machine.execLwalk c w s
  | .remote c w => Sys2Proof.Machine.execRemote c w s
  | .unitQueueAccept c cycles => Sys2Proof.Machine.execUnitQueueAccept c cycles s
  | .fadd c w => Sys2Proof.Machine.execFadd c w s
  | .fsub c w => Sys2Proof.Machine.execFsub c w s
  | .fmul c w => Sys2Proof.Machine.execFmul c w s
  | .ffma c w => Sys2Proof.Machine.execFfma c w s
  | .ffms c w => Sys2Proof.Machine.execFfms c w s
  | .fneg c w => Sys2Proof.Machine.execFneg c w s
  | .fabs c w => Sys2Proof.Machine.execFabs c w s
  | .fmin c w => Sys2Proof.Machine.execFmin c w s
  | .fmax c w => Sys2Proof.Machine.execFmax c w s
  | .sel c w => Sys2Proof.Machine.execSel c w s
  | .vecCopy c w => Sys2Proof.Machine.execVecCopy c w s
  | .fcmp c w => Sys2Proof.Machine.execFcmp c w s
  | .icmp c w => Sys2Proof.Machine.execIcmp c w s
  | .iadd c w => Sys2Proof.Machine.execIadd c w s
  | .isub c w => Sys2Proof.Machine.execIsub c w s
  | .imul c w => Sys2Proof.Machine.execImul c w s
  | .imin c w => Sys2Proof.Machine.execImin c w s
  | .imax c w => Sys2Proof.Machine.execImax c w s
  | .iand c w => Sys2Proof.Machine.execIand c w s
  | .ior c w => Sys2Proof.Machine.execIor c w s
  | .ixor c w => Sys2Proof.Machine.execIxor c w s
  | .ishl c w => Sys2Proof.Machine.execIshl c w s
  | .ishr c w => Sys2Proof.Machine.execIshr c w s
  | .isar c w => Sys2Proof.Machine.execIsar c w s
  | .cvt c w => Sys2Proof.Machine.execCvt c w s
  | .fdiv c w => Sys2Proof.Machine.execFdiv c w s
  | .frcp c w => Sys2Proof.Machine.execFrcp c w s
  | .fsqrt c w => Sys2Proof.Machine.execFsqrt c w s
  | .frsqrt c w => Sys2Proof.Machine.execFrsqrt c w s
  | .ffun c w => Sys2Proof.Machine.execFfun c w s
  | .dadd c w => Sys2Proof.Machine.execDadd c w s
  | .dsub c w => Sys2Proof.Machine.execDsub c w s
  | .dmul c w => Sys2Proof.Machine.execDmul c w s
  | .dfma c w => Sys2Proof.Machine.execDfma c w s
  | .dmin c w => Sys2Proof.Machine.execDmin c w s
  | .dmax c w => Sys2Proof.Machine.execDmax c w s
  | .dcmp c w => Sys2Proof.Machine.execDcmp c w s
  | .ddiv c w => Sys2Proof.Machine.execDdiv c w s
  | .dsqrt c w => Sys2Proof.Machine.execDsqrt c w s
  | .xpose c w => Sys2Proof.Machine.execXpose c w s
  | .vecRotl c w => Sys2Proof.Machine.execVecRotl c w s
  | .perm c w => Sys2Proof.Machine.execPerm c w s
  | .bcol c w => Sys2Proof.Machine.execBcol c w s
  | .rrow c w => Sys2Proof.Machine.execRrow c w s
  | .rcol c w => Sys2Proof.Machine.execRcol c w s
  | .mlog c w => Sys2Proof.Machine.execMlog c w s
  | .mtot c w => Sys2Proof.Machine.execMtot c w s
  | .ttom c w => Sys2Proof.Machine.execTtom c w s
  | .summ c w => Sys2Proof.Machine.execSumm c w s
  | .summaryWrite c cycles => Sys2Proof.Machine.execSummaryWrite c cycles s
  | .vld c w => Sys2Proof.Machine.execVld c w s
  | .vst c w => Sys2Proof.Machine.execVst c w s
  | .quant c w => Sys2Proof.Machine.execQuant c w s
  | .combw c w => Sys2Proof.Machine.execCombw c w s
  | .combc c w => Sys2Proof.Machine.execCombc c w s
  | .rand c w => Sys2Proof.Machine.execRand c w s
  | .sample c w => Sys2Proof.Machine.execSample c w s
  | .smerge c w => Sys2Proof.Machine.execSmerge c w s
  | .passStart c a stallA stallB stallSlot => Sys2Proof.Machine.execPassStart c a stallA stallB stallSlot s
  | .operandStep c a e => Sys2Proof.Machine.execOperandStep c a e s
  | .attemptRestart c a cycles => Sys2Proof.Machine.execAttemptRestart c a cycles s
  | .fillerStep c a e => Sys2Proof.Machine.execFillerStep c a e s
  | .levelChangeGrant q l => Sys2Proof.Machine.execLevelChangeGrant q l s
  | .drainBegin c a parity => Sys2Proof.Machine.execDrainBegin c a parity s
  | .preloadShift c a cycles => Sys2Proof.Machine.execPreloadShift c a cycles s
  | .drainDone c e => Sys2Proof.Machine.execDrainDone c e s
  | .arraySelfTest u failing => Sys2Proof.Machine.execArraySelfTest u failing s
  | .sluiceCheckPass c e cycles => Sys2Proof.Machine.execSluiceCheckPass c e cycles s
  | .sluiceTimeout c e => Sys2Proof.Machine.execSluiceTimeout c e s
  | .deadlock c => Sys2Proof.Machine.execDeadlock c s
  | .leatDelivery c starved => Sys2Proof.Machine.execLeatDelivery c starved s
  | .streamReplay c a => Sys2Proof.Machine.execStreamReplay c a s
  | .tierPrefetchDone x gen layer => Sys2Proof.Machine.execTierPrefetchDone x gen layer s
  | .patrolScrubRead ch err => Sys2Proof.Machine.execPatrolScrubRead ch err s
  | .digestScrub x gen shard => Sys2Proof.Machine.execDigestScrub x gen shard s
  | .shardArrival h j d => Sys2Proof.Machine.execShardArrival h j d s
  | .shardReadTimeout h j => Sys2Proof.Machine.execShardReadTimeout h j s
  | .replicaVerifyDone coll ok => Sys2Proof.Machine.execReplicaVerifyDone coll ok s
  | .backingCopyDone coll shard d => Sys2Proof.Machine.execBackingCopyDone coll shard d s
  | .collCountCheck h => Sys2Proof.Machine.execCollCountCheck h s
  | .collChunkReduce h => Sys2Proof.Machine.execCollChunkReduce h s
  | .collComplete h => Sys2Proof.Machine.execCollComplete h s
  | .collStall h => Sys2Proof.Machine.execCollStall h s
  | .collLimit h => Sys2Proof.Machine.execCollLimit h s
  | .collPutRepeat h tag => Sys2Proof.Machine.execCollPutRepeat h tag s
  | .put v m => Sys2Proof.Machine.execPut v m s
  | .get v m => Sys2Proof.Machine.execGet v m s
  | .atomic v m => Sys2Proof.Machine.execAtomic v m s
  | .getData v m => Sys2Proof.Machine.execGetData v m s
  | .resp v m => Sys2Proof.Machine.execResp v m s
  | .remoteRetryResend tag expired => Sys2Proof.Machine.execRemoteRetryResend tag expired s
  | .remoteTimeout tag => Sys2Proof.Machine.execRemoteTimeout tag s
  | .remoteAbandoned srcNode srcCtx tag => Sys2Proof.Machine.execRemoteAbandoned srcNode srcCtx tag s
  | .peerDown v src node => Sys2Proof.Machine.execPeerDown v src node s
  | .peerUp v src node => Sys2Proof.Machine.execPeerUp v src node s
  | .lightDetected p => Sys2Proof.Machine.execLightDetected p s
  | .lightLost p => Sys2Proof.Machine.execLightLost p s
  | .trainingDone p lanes roundTripNs turnaroundNs => Sys2Proof.Machine.execTrainingDone p lanes roundTripNs turnaroundNs s
  | .trainingTimeout p => Sys2Proof.Machine.execTrainingTimeout p s
  | .hello p h => Sys2Proof.Machine.execHello p h s
  | .linkAuth p m => Sys2Proof.Machine.execLinkAuth p m s
  | .darkHoldExpiry p => Sys2Proof.Machine.execDarkHoldExpiry p s
  | .dataFlit p f => Sys2Proof.Machine.execDataFlit p f s
  | .idleFlit p f => Sys2Proof.Machine.execIdleFlit p f s
  | .nak p ack => Sys2Proof.Machine.execNak p ack s
  | .nakRepeat p => Sys2Proof.Machine.execNakRepeat p s
  | .ackStall p => Sys2Proof.Machine.execAckStall p s
  | .recoveryExpiry p => Sys2Proof.Machine.execRecoveryExpiry p s
  | .rekeyCount p => Sys2Proof.Machine.execRekeyCount p s
  | .rekeyAnnounce p epoch => Sys2Proof.Machine.execRekeyAnnounce p epoch s
  | .creditStall p vc us => Sys2Proof.Machine.execCreditStall p vc us s
  | .laserFail => Sys2Proof.Machine.execLaserFail s
  | .presenceBurst p => Sys2Proof.Machine.execPresenceBurst p s
  | .portReset p who => Sys2Proof.Machine.execPortReset p who s
  | .claim who code anchors admin => Sys2Proof.Machine.execClaim who code anchors admin s
  | .releaseOwnership who => Sys2Proof.Machine.execReleaseOwnership who s
  | .mgmtConfigChange who turn etag c => Sys2Proof.Machine.execMgmtConfigChange who turn etag c s
  | .mgmtBlockExpiry src => Sys2Proof.Machine.execMgmtBlockExpiry src s
  | .mgmtRead who src ctx idx => Sys2Proof.Machine.execMgmtRead who src ctx idx s
  | .eventSubscribe who push => Sys2Proof.Machine.execEventSubscribe who push s
  | .telemetryClear who addrs => Sys2Proof.Machine.execTelemetryClear who addrs s
  | .weightKeyImport who r opened => Sys2Proof.Machine.execWeightKeyImport who r opened s
  | .weightKeyRemove who d => Sys2Proof.Machine.execWeightKeyRemove who d s
  | .refCollectionCreate who id part atUse width replica encrypted => Sys2Proof.Machine.execRefCollectionCreate who id part atUse width replica encrypted s
  | .refCollectionLoad who id block => Sys2Proof.Machine.execRefCollectionLoad who id block s
  | .refCollectionDelete who id => Sys2Proof.Machine.execRefCollectionDelete who id s
  | .fwStage who image verifies => Sys2Proof.Machine.execFwStage who image verifies s
  | .fwActivateRequest who turn => Sys2Proof.Machine.execFwActivateRequest who turn s
  | .fwCopyDone ok => Sys2Proof.Machine.execFwCopyDone ok s
  | .retestRequest who u => Sys2Proof.Machine.execRetestRequest who u s
  | .recoveryImageWrite image verifies => Sys2Proof.Machine.execRecoveryImageWrite image verifies s
  | .recoveryCopyStaged => Sys2Proof.Machine.execRecoveryCopyStaged s
  | .fieldAreaWrite => Sys2Proof.Machine.execFieldAreaWrite s
  | .adminRingEnable v hdr => Sys2Proof.Machine.execAdminRingEnable v hdr s
  | .adminRingDisable v => Sys2Proof.Machine.execAdminRingDisable v s
  | .adminDb v => Sys2Proof.Machine.execAdminDb v s
  | .hostCap v => Sys2Proof.Machine.execHostCap v s
  | .errcapClear v => Sys2Proof.Machine.execErrcapClear v s
  | .evqBase f v => Sys2Proof.Machine.execEvqBase f v s
  | .evqHead f v => Sys2Proof.Machine.execEvqHead f v s
  | .eventDelivery f => Sys2Proof.Machine.execEventDelivery f s
  | .frameEntry f v => Sys2Proof.Machine.execFrameEntry f v s
  | .treadSel v => Sys2Proof.Machine.execTreadSel v s
  | .recordCopyDone => Sys2Proof.Machine.execRecordCopyDone s
  | .ledgerRelease v => Sys2Proof.Machine.execLedgerRelease v s
  | .turnCountRead => Sys2Proof.Machine.execTurnCountRead s
  | .regWrite off size v => Sys2Proof.Machine.execRegWrite off size v s
  | .boardResetDeassert => Sys2Proof.Machine.execBoardResetDeassert s
  | .hostLinkDown => Sys2Proof.Machine.execHostLinkDown s
  | .manifestArrival h d => Sys2Proof.Machine.execManifestArrival h d s
  | .replicaRebuildDone coll => Sys2Proof.Machine.execReplicaRebuildDone coll s
  | .ldmDataReturn c rd err => Sys2Proof.Machine.execLdmDataReturn c rd err s
  | .ptpFollowUp origin => Sys2Proof.Machine.execPtpFollowUp origin s
  | .ptpDelayResp receipt => Sys2Proof.Machine.execPtpDelayResp receipt s
  | .getCapabilities t => Sys2Proof.Machine.execGetCapabilities t s
  | .negotiateAlgorithms t offer => Sys2Proof.Machine.execNegotiateAlgorithms t offer s
  | .getDigests t => Sys2Proof.Machine.execGetDigests t s
  | .finish t ok => Sys2Proof.Machine.execFinish t ok s
  | .endSession t => Sys2Proof.Machine.execEndSession t s

end Sys2Proof.Machine
end

