-- ==== Sys2Proof/Safety.lean ====
section
/-! DEFINITION. What counts as a safe run, in the terms that the claims use: no step stops, the turn unit stays in a state that R38 allows, and
the memory system keeps its canonical form. -/

namespace Sys2Proof.Machine

/-- A step goes on: it is neither a fault nor a refusal. -/
def Continues (s : State) : Prop := ∃ t, step s = .next t

/-- One step leads from s to t. -/
def Steps (s t : State) : Prop := step s = .next t

/-- A command answers a next state, of which P holds. -/
def Completes (o : Host.Outcome State Fault Refusal) (P : State → Prop) : Prop := ∃ t, o = .next t ∧ P t

/-- Core c issues the word w of opcode op: it runs, is not stalled, waits for no register that the word reads, its fetch does not fault, and the
reserved bits of the format are zero (R205, R206, R231). -/
def State.Issues (s : State) (c op res : Nat) (reads : List Nat) (w : Word) : Prop :=
  s.ready c op w reads = true ∧ s.start.fetchFault c = none ∧ clearIn w.toNat res = true

/-- The state in which the instruction of core c runs: its fetch has been made (R234). -/
def State.atIssue (s : State) (c : Nat) : State := s.start.fetched c

/-- What no read of memory changes: every stored byte and tag byte where no error pattern waits in memory, host memory, the turn unit, the
governor, rings, parameters, units, keys, registers, and contexts but for the poison it marks in their generations and catalogues (R242, R245, R263). -/
def State.ReadKeeps (s t : State) : Prop :=
  (s.mem.upsets = [] → t.mem.data = s.mem.data ∧ t.mem.tags = s.mem.tags) ∧ t.hostMem = s.hostMem ∧ t.turn = s.turn ∧ t.gov = s.gov ∧
    t.rings = s.rings ∧ t.params = s.params ∧ t.net = s.net ∧ t.units = s.units ∧ t.sec = s.sec ∧ t.board = s.board ∧ t.regs = s.regs ∧
    ∀ x, t.ctx x = { s.ctx x with gens := (t.ctx x).gens, seqs := (t.ctx x).seqs }

/-- Between s and t core c has run one instruction: but for core c, t is as the fetch of the instruction leaves it, and the fetch, a read, changes
of the rest only what a read of memory changes. -/
def State.OnlyCore (s t : State) (c : Nat) : Prop :=
  t = { (s.atIssue c).settle s with cores := t.cores } ∧ (∀ d, d ≠ c → t.core d = s.core d) ∧ s.ReadKeeps t

/-- Of core c only the PC has moved, to p, besides what the fetch has brought into its instruction buffer and translations. -/
def State.MovedPc (s t : State) (c p : Nat) : Prop :=
  t.core c = { s.core c with pc := p, ibuf := (t.core c).ibuf, tlb := (t.core c).tlb }

/-- Core c has written v into scalar register rd, unless rd is s0, and stands at PC p; its other registers, its flags, its tiles and its engines are
as they were, but for what the fetch has brought into its instruction buffer and translations. Values that were still to arrive in rd from earlier
instructions are no longer kept (R206). -/
def State.WroteReg (s t : State) (c rd : Nat) (v : Word) (p : Nat) : Prop :=
  t.reg c rd = (if rd = 0 then 0 else v) ∧ (∀ n, n ≠ rd → t.reg c n = s.reg c n) ∧ t.pc c = p ∧
    t.core c = { s.core c with pc := p, regs := (t.core c).regs, loads := (t.core c).loads, sums := (t.core c).sums, vq := (t.core c).vq,
                               ibuf := (t.core c).ibuf, tlb := (t.core c).tlb }

/-- The source that each state of the turn unit goes with (R38): none in UNSET, internal in FREE, and link marks or PTP in the others. -/
def TurnUnit.sourceOk (u : TurnUnit) : Bool :=
  match u.st, u.params.source with
  | .unset, none => true
  | .free, some .internal => true
  | .locking, some .marks => true
  | .locking, some .ptp => true
  | .locked, some .marks => true
  | .locked, some .ptp => true
  | .holdover, some .marks => true
  | .holdover, some .ptp => true
  | .lost, some .marks => true
  | .lost, some .ptp => true
  | _, _ => false

/-- A turn unit without boundaries has counted nothing (R33, R38). -/
def TurnUnit.stillZero (u : TurnUnit) : Bool := u.st.counts || (u.count == 0 && u.phase == 0)

/-- A turn unit as R33 and R38 allow it. -/
def TurnUnit.legal (u : TurnUnit) : Bool := u.sourceOk && u.stillZero && (u.st != .unset || u.placed.isNone)

/-- The canonical form of the memory system: bytes and tag bytes are listed with rising keys, and none that reads as an unlisted one does. -/
def Mem.wf (m : Mem) : Bool := Tab.wf m.data 0 && Tab.wf m.tags {}

/-- The commands that concern the turn unit, power, start-up, keeper mode, or firmware in the recovery loader. -/
def turnRow : Instr → Bool
  | .coldStart .. | .inputRemoved | .ready .. | .mgmtColdReset .. | .keeperEntry .. | .mgmtKeeperRequest .. | .regFault .. | .dieTrip
  | .inputOutOfRange .. | .turnBoundary .. | .markEmit | .phaseLimit | .mark .. | .sourceSilence | .holdoverLimit | .ptpSync .. | .ptpAnnounce ..
  | .ptpSyncTimeout | .turnSourceSelect .. | .turnConflictClear .. | .dieTempSample .. | .packageTempSample .. | .fwWatchdog .. | .identify
  | .getFwInfo | .transferFw .. | .activateFw .. | .getSupportedLogs | .getLog .. | .fwStage .. | .fwActivateRequest .. | .recoveryImageWrite ..
  | .recoveryCopyStaged | .turnCountRead | .ptpFollowUp .. | .ptpDelayResp .. => true
  | _ => false

/-- The V3 instruction of an opcode (R221, R222). -/
def v3Instr (op c : Nat) (w : Word) : Option Instr :=
  match op with
  | 0xA0 => some (.fadd c w)
  | 0xA1 => some (.fsub c w)
  | 0xA2 => some (.fmul c w)
  | 0xA3 => some (.ffma c w)
  | 0xA4 => some (.ffms c w)
  | 0xA5 => some (.fneg c w)
  | 0xA6 => some (.fabs c w)
  | 0xA7 => some (.fmin c w)
  | 0xA8 => some (.fmax c w)
  | 0xA9 => some (.sel c w)
  | 0xAA => some (.vecCopy c w)
  | 0xAB => some (.fcmp c w)
  | 0xAC => some (.icmp c w)
  | 0xB0 => some (.iadd c w)
  | 0xB1 => some (.isub c w)
  | 0xB2 => some (.imul c w)
  | 0xB3 => some (.imin c w)
  | 0xB4 => some (.imax c w)
  | 0xB5 => some (.iand c w)
  | 0xB6 => some (.ior c w)
  | 0xB7 => some (.ixor c w)
  | 0xB8 => some (.ishl c w)
  | 0xB9 => some (.ishr c w)
  | 0xBA => some (.isar c w)
  | 0xBC => some (.cvt c w)
  | 0xC0 => some (.fdiv c w)
  | 0xC1 => some (.frcp c w)
  | 0xC2 => some (.fsqrt c w)
  | 0xC3 => some (.frsqrt c w)
  | 0xC4 => some (.ffun c w)
  | 0xC8 => some (.dadd c w)
  | 0xC9 => some (.dsub c w)
  | 0xCA => some (.dmul c w)
  | 0xCB => some (.dfma c w)
  | 0xCC => some (.dmin c w)
  | 0xCD => some (.dmax c w)
  | 0xCE => some (.dcmp c w)
  | 0xCF => some (.ddiv c w)
  | 0xD0 => some (.dsqrt c w)
  | 0xD4 => some (.xpose c w)
  | 0xD5 => some (.vecRotl c w)
  | 0xD6 => some (.perm c w)
  | 0xD7 => some (.bcol c w)
  | 0xD8 => some (.rrow c w)
  | 0xD9 => some (.rcol c w)
  | 0xDA => some (.mlog c w)
  | 0xDB => some (.mtot c w)
  | 0xDC => some (.ttom c w)
  | 0xEC => some (.rand c w)
  | 0xED => some (.sample c w)
  | 0xEE => some (.smerge c w)
  | _ => none

/-- The state in which a vector instruction that finds the queue empty and its slots ready starts: it has been queued behind the PC's advance, and
taken out again (R160). -/
def State.vecTaken (s : State) (c : Nat) (v : VecOp) : State :=
  ((((s.modCore c fun k => { k with vq := k.vq ++ [v] }).advance c).modCore c fun k => { k with vq := [] }).clearStall c 2)

/-- The layer of a generation has been copied into its half of the prefetch buffer, codeword by codeword (R290). -/
def State.layerCopied (s : State) (x : Nat) (g : GenBody) (layer : Nat) : State :=
  (g.layerRanges layer).foldl (fun s r => (List.range (ceilDiv r.2 128)).foldl (fun s i =>
    let d := s.imageRead (some x) none {} g (r.1 + 128 * i) (min 128 (r.2 - 128 * i))
    d.1.imageWrite (some x) none g.bufferBody (g.bufferAt layer r.1 + 128 * i) d.2.1 d.2.2) s) s

/-- The bytes of a shard of a collection have been written where the collection stores it, in whole codewords (R299). -/
def State.shardWritten (s : State) (b : GenBody) (i : Nat) (d : Bytes) : State :=
  let l := b.spans.filter fun e => e.1 == i
  (l.foldl (fun (a : State × Bytes) e => (a.1.imageWrite none none b e.2.1 (wholeCws (a.2.take e.2.2)), a.2.drop e.2.2))
    (s, fitTo (l.map fun e => e.2.2).sum d)).1

/-- Nothing of the scratchpad of core c stands in the way of a plain read: no dirty gather entry, no stored error, no poison (R133, R139). -/
def State.cleanScratch (s : State) (c : Nat) : Prop :=
  (s.core c).gather = [] ∧ (s.lcoreOf c).bad = [] ∧ (s.lcoreOf c).soft = [] ∧ (s.lcoreOf c).poison = []

/-- The command that core c serves fails as a whole with a status, unless it has failed before (R231, R349). -/
def State.FailsWith (s t : State) (c status : Nat) : Prop :=
  ∀ m, s.cmd (s.core c).handle = some m → m.whole = none → ∃ m', t.cmd (s.core c).handle = some m' ∧ m'.whole = some status

/-- The row that releases a command of an opcode (R336); SET_GEN, WAIT_TURN and SEAL_LEDGER have order steps of their own. -/
def releaseInstr (op : Nat) (h : Word) (hdrs : List (Option Bytes)) : Option Instr :=
  match op with
  | 0x01 => some (.openContext h hdrs)
  | 0x02 => if hdrs = [] then some (.closeContext h) else none
  | 0x10 => if hdrs = [] then some (.loadGen h) else none
  | 0x11 => if hdrs = [] then some (.unloadGen h) else none
  | 0x13 => if hdrs = [] then some (.loadTable h) else none
  | 0x20 => if hdrs = [] then some (.openSeq h) else none
  | 0x21 => if hdrs = [] then some (.closeSeq h) else none
  | 0x22 => if hdrs = [] then some (.migrateSeq h) else none
  | 0x30 => if hdrs = [] then some (.stepCmd h) else none
  | 0x31 => if hdrs = [] then some (.launch h) else none
  | 0x40 => if hdrs = [] then some (.copyCmd h) else none
  | 0x41 => if hdrs = [] then some (.fill h) else none
  | 0x50 => if hdrs = [] then some (.openWindow h) else none
  | 0x51 => if hdrs = [] then some (.closeWindow h) else none
  | 0x52 => if hdrs = [] then some (.collective h) else none
  | 0x60 => if hdrs = [] then some (.fenceCmd h) else none
  | 0x70 => if hdrs = [] then some (.query h) else none
  | 0x72 => if hdrs = [] then some (.scrub h) else none
  | _ => none

/-- A fetched command waits, nothing of it has failed, and the block serves commands. -/
def State.Waits (s : State) (m : Cmd) : Prop :=
  s.cmd m.handle = some m ∧ m.st = .waiting ∧ m.whole = none ∧ m.failed = [] ∧ 1 ≤ m.nparts ∧ s.serving = true ∧ s.board.warm = none

/-- A command waits and every condition of its release holds (R336 to R338, R528). -/
def State.Releases (s : State) (m : Cmd) : Prop :=
  s.Waits m ∧ s.depsFailed m = false ∧ s.condsMet m = true ∧ (m.flags.testBit 1 = true → m.due = true) ∧ s.releaseHeld m = false ∧
    s.roomFor m = true

/-- A command as it is when it has just been released in state s (R336, R338). -/
def State.released (s : State) (m : Cmd) : Cmd :=
  { m with st := .released, turnRel := s.turn.count, late := m.flags.testBit 1 && m.turn < s.turn.lowest, due := false }

/-- The command has completed with a status: it has left the table, and its record stands last among those that its ring has ready (R340, R347). -/
def State.Done (s t : State) (m : Cmd) (status : Nat) : Prop :=
  t.cmd m.handle = none ∧ ∀ q, s.ring m.ring = some q → ∃ q' r, t.ring m.ring = some q' ∧ q'.ready = q.ready ++ [r] ∧
    r.handle = m.handle ∧ r.status = status ∧ q'.doneLog = q.doneLog ++ [(seqOf m.handle, status)]

/-- A message that has arrived is taken for this Volud: no earlier one of its channel waits, and over a port it comes from where it may come from, is
well formed, is addressed to this node, and is no request of a node that the port no longer serves (R393, R401, R402, R409, R412). -/
def State.Taken (s : State) (v : Via) (m : Msg) : Prop :=
  s.serving = true ∧ s.arriving v m = true ∧ ∀ p, v = .port p → s.genuine p m.hdr = true ∧ msgOk m = true ∧ s.isSelf m.hdr.dstNode = true ∧
    ¬ (m.hdr.mtype ≤ 3 ∧ m.hdr.srcNode ∈ (s.port p).abusers)

/-- The management port serves a request of a client: it is up, the recovery loader does not run, the client's source is not blocked, and the client
holds one of the roles (R503 to R506, R554). -/
def State.Allows (s : State) (who : Client) (roles : List Role) : Prop :=
  s.mgmtUp = true ∧ s.board.stage ≠ .recovery ∧ who.src ∉ s.sec.blocked ∧ s.permits who roles = true

end Sys2Proof.Machine
end

