-- ==== Sys2Proof/WellFormed.lean ====
section
/-! DEFINITION. Which commands can be written at all: every number of a unit within the range that the spec gives the unit, and every instruction
word under its own opcode. A command that is not well formed names something that the module does not have, and `exec` leaves the state as it is
for it, or ignores the part that is not there (log entry 2). -/

namespace Sys2Proof

/-- A core: there are 128 (01_module_architecture). -/
def wfCore (c : Nat) : Bool := decide (c < 128)
/-- An array of a core (R73). -/
def wfArray (a : Nat) : Bool := decide (a < 8)
/-- A quadrant, or a hub control processor: there are four of each (01_module_architecture, R476). -/
def wfQuad (q : Nat) : Bool := decide (q < 4)
/-- A context (R356). -/
def wfCtx (x : Nat) : Bool := decide (x < 256)
/-- A function (R310). -/
def wfFunc (f : Nat) : Bool := decide (f < 64)
/-- A port (R382). -/
def wfPort (p : Nat) : Bool := decide (p < 8)
/-- A memory channel (R238). -/
def wfChannel (ch : Nat) : Bool := decide (ch < 384)
/-- What start-up finds (R92, R186, R240). -/
def wfTested (t : Tested) : Bool :=
  t.channels.all wfChannel && t.columns.all (fun e => decide (e.1 < 1024) && decide (e.2 < 66)) &&
    t.lanes.all (fun e => decide (e.1 < 128) && decide (e.2 < 65))
/-- A memory package (R238). -/
def wfPackage (m : Nat) : Bool := decide (m < 48)
/-- A power domain (R22). -/
def wfDomain (d : Nat) : Bool := decide (d < 46)
/-- A physical column of an array (R89). -/
def wfColumn (e : Nat × Nat) : Bool := decide (e.1 < 1024) && decide (e.2 < 66)
/-- A physical lane of a core (R184). -/
def wfLane (e : Nat × Nat) : Bool := decide (e.1 < 128) && decide (e.2 < 65)
/-- A ring: up to sixteen of each context, or the admin ring (R326). -/
def wfRing : RingId → Bool
  | .ctx x r => wfCtx x && decide (r < 16)
  | .admin => true
/-- A collection's identifier (R512). -/
def wfColl (id : Nat) : Bool := decide (1 ≤ id) && decide (id < 2 ^ 32)
/-- An access of one to eight bytes, a power of two. -/
def wfSize (n : Nat) : Bool := n == 1 || n == 2 || n == 4 || n == 8
/-- A register of configuration space, those that the model numbers above 4 KiB included (log entry 31). -/
def wfConfig (off : Nat) : Bool := (decide (off < 0x1000) && off % 4 == 0) || (decide (0x1000 ≤ off) && decide (off < 0x100E))
/-- An MSI-X vector of a function (R353). -/
def wfVector (f v : Nat) : Bool := decide (v < if f = 0 then 2048 else 64)
/-- An access of the host within one 64-byte line. -/
def wfLine (h n : Nat) : Bool := decide (h % 64 + n ≤ 64)
/-- A unit that is tested (R92, R186, R482). -/
def wfTest : TestUnit → Bool
  | .array x => decide (x < 1024)
  | .lanes c => wfCore c
  | .core c => wfCore c
/-- Where a message came from. -/
def wfVia : Via → Bool
  | .hub => true
  | .port p => wfPort p
/-- An instruction word of a core: its opcode is the row's (R209). -/
def wfWord (op c : Nat) (w : Word) : Bool := wfCore c && (w.toNat >>> 56) % 256 == op

/-- Well-formed commands. -/
def Instr.wf : Instr → Bool
  | .coldStart _ _ _ failedChannels badColumns badLanes _ => (failedChannels.all wfChannel && (badColumns.all wfColumn && badLanes.all wfLane))
  | .inputRemoved => true
  | .ready found => wfTested found
  | .boardResetAssert => true
  | .hotReset => true
  | .hostLinkDownExpiry => true
  | .hostLinkRetrain _ => true
  | .mgmtWarmReset _ => true
  | .mgmtColdReset _ => true
  | .hubFatal _ => true
  | .flr f => wfFunc f
  | .keeperEntry _ hung => hung.all wfCore
  | .mgmtKeeperRequest _ _ => true
  | .recoveryPeriodExpiry x => wfCtx x
  | .coreHang c => wfCore c
  | .quadrantReset q _ hung failedChannels => (wfQuad q && (hung.all wfCore && failedChannels.all wfChannel))
  | .regFault d => wfDomain d
  | .dieTrip => true
  | .inputOutOfRange _ => true
  | .inputRecovered => true
  | .powerBrakeAssert => true
  | .powerBrakeDeassert => true
  | .turnBoundary _ found _ => wfTested found
  | .commandRelease _ _ => true
  | .deadlineExpiry _ => true
  | .weightKeyExpiry _ => true
  | .sealInterval => true
  | .energyUnreconciled => true
  | .energyReconciled => true
  | .markEmit => true
  | .phaseLimit => true
  | .mark p _ => wfPort p
  | .sourceSilence => true
  | .holdoverLimit => true
  | .ptpSync t _ _ _ => t.domain < 256
  | .ptpAnnounce m => m.domain < 256
  | .ptpSyncTimeout => true
  | .turnSourceSelect _ _ _ => true
  | .turnConflictClear _ => true
  | .governorTick _ => true
  | .droopDetect q => wfQuad q
  | .droopRecover q _ _ => wfQuad q
  | .dieTempSample _ _ => true
  | .packageTempSample m _ => wfPackage m
  | .refreshRateFall m => wfPackage m
  | .pacedRest => true
  | .heartbeat p => wfQuad p
  | .fwHeartbeatLate p => wfQuad p
  | .fwWatchdog p => wfQuad p
  | .hostLinkTrained _ _ _ => true
  | .configRequest f off _ => (wfFunc f && wfConfig off)
  | .mmioDoorbell _ addr size _ => (decide (addr < 2 ^ 64) && wfSize size)
  | .ringResume r _ => wfRing r
  | .doorbellSnoop r _ => wfRing r
  | .doorbellPoll r _ => wfRing r
  | .snoopInvalid f _ => wfFunc f
  | .atsInvalidation f _ _ => wfFunc f
  | .cxlMemRead h len _ => wfLine h len
  | .cxlMemWrite h d => wfLine h d.length
  | .cxlIoReadTimeout _ => true
  | .cxlCacheTimeout _ => true
  | .cxlCacheErrorResponse _ => true
  | .malformedTlp => true
  | .unexpectedCompletion => true
  | .malformedCxlMessage => true
  | .hostViral => true
  | .hostIdeFail => true
  | .ideKm stream _ => decide (stream < 2)
  | .msixUnmask f v => (wfFunc f && wfVector f v)
  | .identify => true
  | .getFwInfo => true
  | .transferFw _ _ _ _ _ => true
  | .activateFw _ _ => true
  | .getSupportedLogs => true
  | .getLog _ _ _ => true
  | .getVersion _ => true
  | .getCertificate _ _ _ _ => true
  | .challenge _ _ _ => true
  | .getMeasurements _ _ _ => true
  | .keyExchange _ _ _ => true
  | .descriptorFetch r _ => wfRing r
  | .descriptorReadRetry r _ => wfRing r
  | .completionWrite r _ => wfRing r
  | .irqTimerExpiry r => wfRing r
  | .openContext _ _ => true
  | .closeContext _ => true
  | .loadGen _ => true
  | .unloadGen _ => true
  | .setGen _ => true
  | .loadTable _ => true
  | .openSeq _ => true
  | .closeSeq _ => true
  | .migrateSeq _ => true
  | .stepCmd _ => true
  | .launch _ => true
  | .copyCmd _ => true
  | .fill _ => true
  | .openWindow _ => true
  | .closeWindow _ => true
  | .collective _ => true
  | .fenceCmd _ => true
  | .waitTurn _ => true
  | .query _ => true
  | .sealLedger _ => true
  | .scrub _ => true
  | .tableSlotWrite _ => true
  | .genPagesFreed _ => true
  | .seqMigrateApply _ => true
  | .scrubDone x => wfCtx x
  | .kernelCommandEnd _ => true
  | .spillCopyDone x _ => wfCtx x
  | .spillReturnDone x _ _ => wfCtx x
  | .placementBetweenBoundaries x => wfCtx x
  | .ctxReset _ => true
  | .mgmtContextReset _ x => wfCtx x
  | .add c w => wfWord 0x01 c w
  | .sub c w => wfWord 0x02 c w
  | .mul c w => wfWord 0x03 c w
  | .mulhu c w => wfWord 0x04 c w
  | .mulhs c w => wfWord 0x05 c w
  | .divu c w => wfWord 0x06 c w
  | .divs c w => wfWord 0x07 c w
  | .remu c w => wfWord 0x08 c w
  | .rems c w => wfWord 0x09 c w
  | .and c w => wfWord 0x0A c w
  | .or c w => wfWord 0x0B c w
  | .xor c w => wfWord 0x0C c w
  | .shl c w => wfWord 0x0D c w
  | .shr c w => wfWord 0x0E c w
  | .sar c w => wfWord 0x0F c w
  | .rotl c w => wfWord 0x10 c w
  | .sltu c w => wfWord 0x11 c w
  | .slts c w => wfWord 0x12 c w
  | .addi c w => wfWord 0x21 c w
  | .andi c w => wfWord 0x2A c w
  | .ori c w => wfWord 0x2B c w
  | .xori c w => wfWord 0x2C c w
  | .shli c w => wfWord 0x2D c w
  | .shri c w => wfWord 0x2E c w
  | .sari c w => wfWord 0x2F c w
  | .sltui c w => wfWord 0x31 c w
  | .sltsi c w => wfWord 0x32 c w
  | .sethi c w => wfWord 0x38 c w
  | .beq c w => wfWord 0x40 c w
  | .bne c w => wfWord 0x41 c w
  | .bltu c w => wfWord 0x42 c w
  | .bgeu c w => wfWord 0x43 c w
  | .blts c w => wfWord 0x44 c w
  | .bges c w => wfWord 0x45 c w
  | .jal c w => wfWord 0x48 c w
  | .jalr c w => wfWord 0x49 c w
  | .lds c w => wfWord 0x50 c w
  | .sts c w => wfWord 0x51 c w
  | .ldm c w => wfWord 0x52 c w
  | .stm c w => wfWord 0x53 c w
  | .urd c w => wfWord 0x60 c w
  | .uwr c w => wfWord 0x61 c w
  | .turnrd c w => wfWord 0x62 c w
  | .coreFence c w => wfWord 0x63 c w
  | .exitKernel c w => wfWord 0x64 c w
  | .trapret c w => wfWord 0x65 c w
  | .sarm c w => wfWord 0x70 c w
  | .sfill c w => wfWord 0x71 c w
  | .sdrain c w => wfWord 0x72 c w
  | .swait c w => wfWord 0x73 c w
  | .spoll c w => wfWord 0x74 c w
  | .pass c w => wfWord 0x80 c w
  | .lmove c w => wfWord 0x90 c w
  | .lstream c w => wfWord 0x91 c w
  | .lwalk c w => wfWord 0x92 c w
  | .remote c w => wfWord 0xF0 c w
  | .unitQueueAccept c _ => wfCore c
  | .fadd c w => wfWord 0xA0 c w
  | .fsub c w => wfWord 0xA1 c w
  | .fmul c w => wfWord 0xA2 c w
  | .ffma c w => wfWord 0xA3 c w
  | .ffms c w => wfWord 0xA4 c w
  | .fneg c w => wfWord 0xA5 c w
  | .fabs c w => wfWord 0xA6 c w
  | .fmin c w => wfWord 0xA7 c w
  | .fmax c w => wfWord 0xA8 c w
  | .sel c w => wfWord 0xA9 c w
  | .vecCopy c w => wfWord 0xAA c w
  | .fcmp c w => wfWord 0xAB c w
  | .icmp c w => wfWord 0xAC c w
  | .iadd c w => wfWord 0xB0 c w
  | .isub c w => wfWord 0xB1 c w
  | .imul c w => wfWord 0xB2 c w
  | .imin c w => wfWord 0xB3 c w
  | .imax c w => wfWord 0xB4 c w
  | .iand c w => wfWord 0xB5 c w
  | .ior c w => wfWord 0xB6 c w
  | .ixor c w => wfWord 0xB7 c w
  | .ishl c w => wfWord 0xB8 c w
  | .ishr c w => wfWord 0xB9 c w
  | .isar c w => wfWord 0xBA c w
  | .cvt c w => wfWord 0xBC c w
  | .fdiv c w => wfWord 0xC0 c w
  | .frcp c w => wfWord 0xC1 c w
  | .fsqrt c w => wfWord 0xC2 c w
  | .frsqrt c w => wfWord 0xC3 c w
  | .ffun c w => wfWord 0xC4 c w
  | .dadd c w => wfWord 0xC8 c w
  | .dsub c w => wfWord 0xC9 c w
  | .dmul c w => wfWord 0xCA c w
  | .dfma c w => wfWord 0xCB c w
  | .dmin c w => wfWord 0xCC c w
  | .dmax c w => wfWord 0xCD c w
  | .dcmp c w => wfWord 0xCE c w
  | .ddiv c w => wfWord 0xCF c w
  | .dsqrt c w => wfWord 0xD0 c w
  | .xpose c w => wfWord 0xD4 c w
  | .vecRotl c w => wfWord 0xD5 c w
  | .perm c w => wfWord 0xD6 c w
  | .bcol c w => wfWord 0xD7 c w
  | .rrow c w => wfWord 0xD8 c w
  | .rcol c w => wfWord 0xD9 c w
  | .mlog c w => wfWord 0xDA c w
  | .mtot c w => wfWord 0xDB c w
  | .ttom c w => wfWord 0xDC c w
  | .summ c w => wfWord 0xE0 c w
  | .summaryWrite c _ => wfCore c
  | .vld c w => wfWord 0xE4 c w
  | .vst c w => wfWord 0xE5 c w
  | .quant c w => wfWord 0xE6 c w
  | .combw c w => wfWord 0xE8 c w
  | .combc c w => wfWord 0xE9 c w
  | .rand c w => wfWord 0xEC c w
  | .sample c w => wfWord 0xED c w
  | .smerge c w => wfWord 0xEE c w
  | .passStart c a _ _ _ => (wfCore c && wfArray a)
  | .operandStep c a _ => (wfCore c && wfArray a)
  | .attemptRestart c a _ => (wfCore c && wfArray a)
  | .fillerStep c a _ => (wfCore c && wfArray a)
  | .levelChangeGrant q _ => wfQuad q
  | .drainBegin c a _ => (wfCore c && wfArray a)
  | .preloadShift c a _ => (wfCore c && wfArray a)
  | .drainDone c e => (wfCore c && wfArray e.array)
  | .arraySelfTest u _ => wfTest u
  | .sluiceCheckPass c _ _ => wfCore c
  | .sluiceTimeout c _ => wfCore c
  | .deadlock c => wfCore c
  | .leatDelivery c _ => wfCore c
  | .streamReplay c a => (wfCore c && wfArray a)
  | .tierPrefetchDone x _ _ => wfCtx x
  | .patrolScrubRead ch _ => wfChannel ch
  | .digestScrub x _ _ => decide (x < 257)
  | .shardArrival _ _ _ => true
  | .shardReadTimeout _ _ => true
  | .replicaVerifyDone coll _ => wfColl coll
  | .backingCopyDone coll _ _ => wfColl coll
  | .collCountCheck _ => true
  | .collChunkReduce _ => true
  | .collComplete _ => true
  | .collStall _ => true
  | .collLimit _ => true
  | .collPutRepeat _ _ => true
  | .put v _ => wfVia v
  | .get v _ => wfVia v
  | .atomic v _ => wfVia v
  | .getData v _ => wfVia v
  | .resp v _ => wfVia v
  | .remoteRetryResend _ _ => true
  | .remoteTimeout _ => true
  | .remoteAbandoned srcNode srcCtx _ => (decide (srcNode < 65536) && wfCtx srcCtx)
  | .peerDown _ _ node => decide (node < 65536)
  | .peerUp _ _ node => decide (node < 65536)
  | .lightDetected p => wfPort p
  | .lightLost p => wfPort p
  | .trainingDone p _ _ _ => wfPort p
  | .trainingTimeout p => wfPort p
  | .hello p _ => wfPort p
  | .linkAuth p _ => wfPort p
  | .darkHoldExpiry p => wfPort p
  | .dataFlit p _ => wfPort p
  | .idleFlit p _ => wfPort p
  | .nak p _ => wfPort p
  | .nakRepeat p => wfPort p
  | .ackStall p => wfPort p
  | .recoveryExpiry p => wfPort p
  | .rekeyCount p => wfPort p
  | .rekeyAnnounce p _ => wfPort p
  | .creditStall p vc _ => (wfPort p && decide (vc < 3))
  | .laserFail => true
  | .presenceBurst p => wfPort p
  | .portReset p _ => wfPort p
  | .claim _ _ anchors _ => decide (anchors.length ≤ 4)
  | .releaseOwnership _ => true
  | .mgmtConfigChange _ _ _ _ => true
  | .mgmtBlockExpiry _ => true
  | .mgmtRead _ _ ctx _ => decide (ctx < 2 ^ 16)
  | .eventSubscribe _ _ => true
  | .telemetryClear _ _ => true
  | .weightKeyImport _ r _ => decide (r.length = 0x250)
  | .weightKeyRemove _ _ => true
  | .refCollectionCreate _ id part _ _ _ _ => (wfColl id && decide (part < 4))
  | .refCollectionLoad _ id _ => wfColl id
  | .refCollectionDelete _ id => wfColl id
  | .fwStage _ _ _ => true
  | .fwActivateRequest _ _ => true
  | .fwCopyDone _ => true
  | .retestRequest _ u => wfTest u
  | .recoveryImageWrite _ _ => true
  | .recoveryCopyStaged => true
  | .fieldAreaWrite => true
  | .adminRingEnable _ _ => true
  | .adminRingDisable _ => true
  | .adminDb _ => true
  | .hostCap _ => true
  | .errcapClear _ => true
  | .evqBase f _ => wfFunc f
  | .evqHead f _ => wfFunc f
  | .eventDelivery f => wfFunc f
  | .frameEntry f _ => decide (f < 256)
  | .treadSel _ => true
  | .recordCopyDone => true
  | .ledgerRelease _ => true
  | .turnCountRead => true
  | .regWrite _ size _ => wfSize size
  | .boardResetDeassert => true
  | .hostLinkDown => true
  | .manifestArrival _ _ => true
  | .replicaRebuildDone coll => wfColl coll
  | .ldmDataReturn c rd _ => (wfCore c && decide (rd < 32))
  | .ptpFollowUp t => t.domain < 256
  | .ptpDelayResp t => t.domain < 256
  | .getCapabilities _ => true
  | .negotiateAlgorithms _ _ => true
  | .getDigests _ => true
  | .finish _ _ => true
  | .endSession _ => true

end Sys2Proof
end

