-- ==== Sys2Proof/Certificates/Slice0/Obligations.lean ====
section
/-! DEFINITION. The statements for the provers. `Completes o P` says that the command answers a next state of which P holds. -/

open Sys2Proof Sys2Proof.Machine

/-! ## The machine as a whole -/

/-- One step runs the command at the front of the queue on the state with the queue's rest. -/
def Obligations.StepRunsFront : Prop :=
  ∀ (i : Instr) (rest : List Instr) (s : State), s.pending = i :: rest → step s = exec i { s with pending := rest }

/-- On an empty queue a step is one tick of 10 ns (R31; the model's own choice, log entry 3): the model's clock advances by one, the phase counts
only in a state with boundaries and stops at 2^32 − 1 (R32), and of the rest only the stall and deadlock ticks of the cores change; what the
command before sent is gone. -/
def Obligations.EmptyQueueTick : Prop :=
  ∀ s : State, s.pending = [] →
    Completes (step s) fun t =>
      t = { s with now := s.now + 1, turn := t.turn, cores := t.cores, out := [] } ∧
      t.turn = { s.turn with phase := t.turn.phase } ∧
      (s.turn.st.counts = false → t.turn.phase = s.turn.phase) ∧
      (s.turn.st.counts = true → s.turn.phase ≠ BitVec.allOnes 32 → t.turn.phase = s.turn.phase + 1) ∧
      (s.turn.phase = BitVec.allOnes 32 → t.turn.phase = s.turn.phase) ∧
      ∀ c, t.core c = { s.core c with stallTicks := (t.core c).stallTicks, deadTicks := (t.core c).deadTicks }

/-- Before any input, nothing on the module is powered; no turn has begun and no source is selected (R33, R38); the default period is 100 000
ticks (R35), and the governor's caps are 1 600 W and 1 900 W. That
the queue, the memory and the powered domains are empty before any input is the model's choice (log entry 37). -/
def Obligations.ResetState : Prop :=
  State.reset.board.stage = .off ∧ State.reset.board.domains = 0 ∧ State.reset.pending = [] ∧ State.reset.turn.st = .unset ∧
    State.reset.turn.count = 0 ∧ State.reset.turn.phase = 0 ∧ State.reset.turn.params.source = none ∧
    State.reset.turn.params.period = 100000 ∧ State.reset.turn.params.lead = 2000 ∧ State.reset.turn.params.holdLim = 16 ∧
    State.reset.turn.params.stretchLim = 64 ∧ State.reset.turn.params.jumpLim = 65536 ∧ State.reset.gov.capM = 1600 ∧
    State.reset.gov.capH = 1900 ∧ State.reset.mem.data = [] ∧ State.reset.sec.owned = false

/-- The turn unit is in a legal state at reset, and the memory system in its canonical form. -/
def Obligations.LegalAtReset : Prop := State.reset.turn.legal = true ∧ State.reset.mem.wf = true

/-- Every command, in every state, answers a next state: no fault, no refusal. -/
def Obligations.NeverStops : Prop := ∀ (i : Instr) (s : State), ∃ t, exec i s = .next t

/-- R38: whatever is commanded, the turn unit stays in a state that the table of R38 allows with the source selected: no source in UNSET, the
internal one in FREE, link marks or PTP in the others; without boundaries it has counted nothing. -/
def Obligations.TurnUnitStaysLegal : Prop := ∀ s t : State, s.turn.legal = true → Steps s t → t.turn.legal = true

/-- R31, R33: the turn counter never decreases, except that it becomes 0 where the turn unit loses its power. -/
def Obligations.CounterNeverDecreases : Prop :=
  ∀ s t : State, Steps s t → s.turn.count ≤ t.turn.count ∨ t.turn.count = 0

/-- R33, R34: no other command touches the turn unit: not a host access, not a command of a ring, not an instruction of a core, and no reset but
the loss of power. -/
def Obligations.TurnUnitUntouched : Prop :=
  ∀ (i : Instr) (s t : State), turnRow i = false → exec i s = .next t → t.turn = s.turn

/-- A step takes exactly the command at the front of the queue, which is first in, first out; only an empty queue lets the model's clock advance;
and nothing ever changes the factory area (R544). -/
def Obligations.QueueClockFactory : Prop :=
  ∀ s t : State, Steps s t →
    t.factory = s.factory ∧
    (∀ i rest, s.pending = i :: rest → t.pending = rest ∧ t.now = s.now) ∧
    (s.pending = [] → t.pending = [] ∧ t.now = s.now + 1)

/-! ## The control core -/

/-- R210: the register-to-register instructions write rd and go on; nothing but core c changes. -/
def Obligations.AluRegister : Prop :=
  ∀ (c : Nat) (w : Word) (s : State),
    let run := fun (op : Nat) (i : Instr) (f : Word → Word → Word) =>
      s.Issues c op resR [fRa w, fRb w] w →
        Completes (exec i s) fun t => s.WroteReg t c (fRd w) (f (s.reg c (fRa w)) (s.reg c (fRb w))) (s.pc c + 8) ∧ s.OnlyCore t c
    run 0x01 (.add c w) (fun a b => a + b) ∧ run 0x02 (.sub c w) (fun a b => a - b) ∧ run 0x03 (.mul c w) (fun a b => a * b) ∧
    run 0x04 (.mulhu c w) (fun a b => BitVec.ofNat 64 (a.toNat * b.toNat / 2 ^ 64)) ∧
    run 0x05 (.mulhs c w) (fun a b => BitVec.ofInt 64 (a.toInt * b.toInt / 2 ^ 64)) ∧
    run 0x0A (.and c w) (fun a b => a &&& b) ∧ run 0x0B (.or c w) (fun a b => a ||| b) ∧ run 0x0C (.xor c w) (fun a b => a ^^^ b) ∧
    run 0x0D (.shl c w) (fun a b => a <<< (b.toNat % 64)) ∧ run 0x0E (.shr c w) (fun a b => a >>> (b.toNat % 64)) ∧
    run 0x0F (.sar c w) (fun a b => a.sshiftRight (b.toNat % 64)) ∧ run 0x10 (.rotl c w) (fun a b => a.rotateLeft (b.toNat % 64)) ∧
    run 0x11 (.sltu c w) (fun a b => if a.toNat < b.toNat then 1 else 0) ∧
    run 0x12 (.slts c w) (fun a b => if a.toInt < b.toInt then 1 else 0)

/-- R211: division never faults, truncates toward zero, and has the edge cases of the table. -/
def Obligations.Division : Prop :=
  ∀ (c : Nat) (w : Word) (s : State),
    let run := fun (op : Nat) (i : Instr) (f : Word → Word → Word) =>
      s.Issues c op resR [fRa w, fRb w] w →
        Completes (exec i s) fun t => s.WroteReg t c (fRd w) (f (s.reg c (fRa w)) (s.reg c (fRb w))) (s.pc c + 8) ∧ s.OnlyCore t c
    run 0x06 (.divu c w) (fun a b => if b = 0 then BitVec.allOnes 64 else a / b) ∧
    run 0x07 (.divs c w) (fun a b => if b = 0 then BitVec.allOnes 64 else BitVec.ofInt 64 (a.toInt.tdiv b.toInt)) ∧
    run 0x08 (.remu c w) (fun a b => if b = 0 then a else a % b) ∧
    run 0x09 (.rems c w) (fun a b => if b = 0 then a else BitVec.ofInt 64 (a.toInt.tmod b.toInt))

/-- R210: the instructions with an immediate: imm is sign-extended, except in ANDI, ORI and XORI; a shift takes imm[5:0]; SETHI puts imm above
ra[31:0]. -/
def Obligations.AluImmediate : Prop :=
  ∀ (c : Nat) (w : Word) (s : State),
    let zext : Word := BitVec.ofNat 64 (w.toNat % 2 ^ 32)
    let sext : Word := (w.truncate 32).signExtend 64
    let sh := w.toNat % 64
    let run := fun (op res : Nat) (i : Instr) (f : Word → Word) =>
      s.Issues c op (resI ||| res) [fRa w] w →
        Completes (exec i s) fun t => s.WroteReg t c (fRd w) (f (s.reg c (fRa w))) (s.pc c + 8) ∧ s.OnlyCore t c
    run 0x21 0 (.addi c w) (fun a => a + sext) ∧ run 0x2A 0 (.andi c w) (fun a => a &&& zext) ∧
    run 0x2B 0 (.ori c w) (fun a => a ||| zext) ∧ run 0x2C 0 (.xori c w) (fun a => a ^^^ zext) ∧
    run 0x2D 0xFFFFFFC0 (.shli c w) (fun a => a <<< sh) ∧ run 0x2E 0xFFFFFFC0 (.shri c w) (fun a => a >>> sh) ∧
    run 0x2F 0xFFFFFFC0 (.sari c w) (fun a => a.sshiftRight sh) ∧
    run 0x31 0 (.sltui c w) (fun a => if a.toNat < sext.toNat then 1 else 0) ∧
    run 0x32 0 (.sltsi c w) (fun a => if a.toInt < sext.toInt then 1 else 0) ∧
    run 0x38 0 (.sethi c w) (fun a => (w.truncate 32) ++ (a.truncate 32))

/-- R210: a branch whose relation of ra to rb holds goes to PC + 8 × offset, the offset signed; otherwise the next instruction follows, and no register
changes. JAL and JALR write PC + 8 to rd and jump, to PC + 8 × imm and to ra + imm. -/
def Obligations.BranchesAndJumps : Prop :=
  ∀ (c : Nat) (w : Word) (s : State),
    let sext : Word := (w.truncate 32).signExtend 64
    let target : Word := BitVec.ofNat 64 (s.pc c) + 8 * sext
    let link : Word := BitVec.ofNat 64 (s.pc c + 8)
    let run := fun (op : Nat) (i : Instr) (f : Word → Word → Bool) =>
      s.Issues c op resB [fRd w, fRa w] w →
        Completes (exec i s) fun t =>
          s.MovedPc t c (if f (s.reg c (fRd w)) (s.reg c (fRa w)) then target.toNat else s.pc c + 8) ∧ s.OnlyCore t c
    run 0x40 (.beq c w) (fun a b => a == b) ∧ run 0x41 (.bne c w) (fun a b => a != b) ∧ run 0x42 (.bltu c w) (fun a b => decide (a.toNat < b.toNat)) ∧
    run 0x43 (.bgeu c w) (fun a b => decide (b.toNat ≤ a.toNat)) ∧ run 0x44 (.blts c w) (fun a b => decide (a.toInt < b.toInt)) ∧
    run 0x45 (.bges c w) (fun a b => decide (b.toInt ≤ a.toInt)) ∧
    (s.Issues c 0x48 (resI ||| 0x1F * 2 ^ 46) [] w →
      Completes (exec (.jal c w) s) fun t => s.WroteReg t c (fRd w) link target.toNat ∧ s.OnlyCore t c) ∧
    (s.Issues c 0x49 resI [fRa w] w →
      Completes (exec (.jalr c w) s) fun t => s.WroteReg t c (fRd w) link (s.reg c (fRa w) + sext).toNat ∧ s.OnlyCore t c)

/-- R205: an instruction with a reserved field that is not zero faults with ILLEGAL_INSTR, here for ADD, and a word whose opcode no table lists
does, whatever row brings it: the kernel stops with a precise record. -/
def Obligations.ReservedFieldFaults : Prop :=
  ∀ (c : Nat) (w : Word) (s : State), s.start.fetchFault c = none →
    (s.ready c 0x01 w [fRa w, fRb w] = true → clearIn w.toNat resR = false →
      Completes (exec (.add c w) s) fun t => t = ((s.atIssue c).ctlFault c 0x0101 0).settle s) ∧
    (s.canIssue c = true → listedOp (opOf w) = false →
      Completes (exec (.add c w) s) fun t => t = ((s.atIssue c).ctlFault c 0x0101 0).settle s)


/-! ## Scratchpad, memory, unit registers and slots, as the control core sees them -/

/-- What the gather buffer takes, it gives back: a narrow load of the bytes just stored narrowly within one row returns them, whatever the row
holds (R133). -/
def Obligations.NarrowStoreThenLoad : Prop :=
  ∀ (s : State) (c a : Nat) (d : Bytes), a % 512 + d.length ≤ 512 → ((s.narrowStore c a d).narrowLoad c a d.length).2 = some d

/-- R212: LDS, once its address is allowed and its slot passes, writes the loaded bytes to rd, sign-extended or zero-extended, and goes on; STS
stores the low SIZE bytes of its register through the gather buffer, and goes on. Under PLAIN no slot changes. A poisoned row instead ends LDS with a
precise MEM_FAULT record of POISON (R133, R139); an address that is not allowed ends both with SCRATCH_RANGE or SCRATCH_ALIGN (R130). -/
def Obligations.NarrowAccess : Prop :=
  ∀ (c : Nat) (w : Word) (s : State),
    let a := (s.effAddr c w).toNat
    let n := 2 ^ (w.toNat / 2 ^ 44 % 4)
    let u := s.atIssue c
    (s.Issues c 0x50 resM [fRa w] w →
      (∀ code, s.narrowFault c w = some code → Completes (exec (.lds c w) s) fun t => t = (u.ctlFault c code a).settle s) ∧
      (s.narrowFault c w = none → s.sluiceCheck c (fSluice w) false = .pass →
        (∀ d, (u.narrowLoad c a n).2 = some d → Completes (exec (.lds c w) s) fun t =>
          t.reg c (fRd w) = (if fRd w = 0 then 0 else loadValue (bitAt w 43) d) ∧ (∀ m, m ≠ fRd w → t.reg c m = s.reg c m) ∧
          t.pc c = s.pc c + 8 ∧ t.mem = u.mem ∧ t.turn = s.turn ∧ (∀ e, e ≠ c → t.core e = s.core e) ∧
          ((fSluice w).mode < 2 → t = ((u.narrowLoad c a n).1.result c w (loadValue (bitAt w 43) d)).settle s)) ∧
        ((u.narrowLoad c a n).2 = none → Completes (exec (.lds c w) s) fun t =>
          t = ((u.narrowLoad c a n).1.fault c 1 0 0x010A 0x06 false (some (s.pc c)) a []).settle s))) ∧
    (s.Issues c 0x51 resM [fRa w, fRd w] w →
      (∀ code, s.narrowFault c w = some code → Completes (exec (.sts c w) s) fun t => t = (u.ctlFault c code a).settle s) ∧
      (s.narrowFault c w = none → s.sluiceCheck c (fSluice w) true = .pass → Completes (exec (.sts c w) s) fun t =>
        (∀ m, t.reg c m = s.reg c m) ∧ t.pc c = s.pc c + 8 ∧ t.mem = u.mem ∧ (∀ e, e ≠ c → t.core e = s.core e) ∧
        ((fSluice w).mode < 2 → t = ((u.narrowStore c a (toLe n (s.reg c (fRd w)).toNat)).advance c).settle s)))

/-- R243, R245, R255: a write of bytes within one codeword, in the codeword's own slot or in a codeword of slot 0, is read back in that slot; the
codeword's other bytes and every other codeword read, in every slot, as before; in another slot the write is discarded. A write of all
128 bytes leaves the codeword poisoned only if the data are; a narrower one leaves a poisoned codeword poisoned, and it keeps delivering poison. -/
def Obligations.CodewordWrite : Prop :=
  ∀ (m : Mem) (slot a : Nat) (d : Bytes), a % 128 + d.length ≤ 128 →
    (∀ p, (m.tag a).slot ≠ 0 → (m.tag a).slot ≠ slot → m.writeCw slot a d p = (m, true)) ∧
    ((m.tag a).slot = 0 ∨ (m.tag a).slot = slot →
      (m.writeCw slot a d false).2 = false ∧
      ((m.tag a).poison = false ∨ d.length = 128 →
        (∀ i, i < d.length → Tab.look (m.writeCw slot a d false).1.data 0 (a + i) = d.getD i 0) ∧
        (m.writeCw slot a d false).1.tag a = { poison := false, slot }) ∧
      (d.length = 128 → (m.writeCw slot a d true).1.tag a = { poison := true, slot }) ∧
      ((m.tag a).poison = true → d.length < 128 → ∀ p, (m.writeCw slot a d p).1.tag a = { poison := true, slot } ∧
        (m.writeCw slot a d p).1.readCw slot a = (List.replicate 128 0xFF, true, false))) ∧
    (∀ b p, b < a ∨ a + d.length ≤ b → Tab.look (m.writeCw slot a d p).1.data 0 b = Tab.look m.data 0 b ∨ p = true) ∧
    (∀ b p, b / 128 ≠ a / 128 → ∀ k, (m.writeCw slot a d p).1.readCw k b = m.readCw k b)

/-- R212, R206: STM writes the low SIZE bytes of its register to the codeword that its virtual address translates to, and LDM captures its codeword
(log entry 44) for rd, which then waits; both go on at the next instruction. Without a translation for the access both end with
MEM_FAULT (R250). When the data of a load return, rd receives its bytes, sign-extended or zero-extended, unless they are poison. -/
def Obligations.MemoryAccess : Prop :=
  ∀ (c x k : Nat) (w : Word) (s : State), s.ownerOf c = some (x, k) →
    let va := (s.effAddr c w).toNat
    let n := 2 ^ (w.toNat / 2 ^ 44 % 4)
    let u := (s.atIssue c).walkFor c x 1 va n
    let bad : Prop := 2 ^ 48 ≤ va ∨ va % n ≠ 0
    (s.Issues c 0x53 resNarrowMem [fRa w, fRd w] w →
      (bad → Completes (exec (.stm c w) s) fun t => t = ((s.atIssue c).ctlFault c 0x0109 va).settle s) ∧
      (¬ bad → u.2 = false ∨ u.1.translate x .write false va = none →
        Completes (exec (.stm c w) s) fun t => t = (u.1.ctlFault c 0x0109 va).settle s) ∧
      (∀ a slot, ¬ bad → u.2 = true → u.1.translate x .write false va = some (a, slot) → Completes (exec (.stm c w) s) fun t =>
          let d := toLe n (s.reg c (fRd w)).toNat
          let m := (((u.1.countQueue { unit := 1, core := some c } [(a, n, slot)]).backInvalidate a).settleCw 1 a).mem
          t.mem.data = (m.writeCw slot a d false).1.data ∧ t.mem.tags = (m.writeCw slot a d false).1.tags ∧
          (s.mem.upsets = [] →
            t.mem.data = (s.mem.writeCw slot a d false).1.data ∧ t.mem.tags = (s.mem.writeCw slot a d false).1.tags) ∧
          s.MovedPc t c (s.pc c + 8) ∧ (∀ e, e ≠ c → t.core e = s.core e) ∧
          ∀ y, t.ctx y = { s.ctx y with gens := (t.ctx y).gens, seqs := (t.ctx y).seqs })) ∧
    (s.Issues c 0x52 resNarrowMem [fRa w] w →
      (bad → Completes (exec (.ldm c w) s) fun t => t = ((s.atIssue c).ctlFault c 0x0109 va).settle s) ∧
      (¬ bad → u.2 = false ∨ u.1.translate x .read false va = none →
        Completes (exec (.ldm c w) s) fun t => t = (u.1.ctlFault c 0x0109 va).settle s) ∧
      (∀ a slot, ¬ bad → u.2 = true → u.1.translate x .read false va = some (a, slot) → Completes (exec (.ldm c w) s) fun t =>
          (∃ l, (t.core c).loads.getLast? = some l ∧ l.rd = fRd w ∧ l.va = va ∧ l.size = n ∧ l.sx = bitAt w 43 ∧ l.dpa = a ∧
            (s.mem.upsets = [] → l.data = (s.mem.readCw slot a).1 ∧ l.poison = (s.mem.readCw slot a).2.1)) ∧
          (fRd w ≠ 0 → (t.core c).awaits (fRd w) = true) ∧ t.pc c = s.pc c + 8 ∧ (∀ m, t.reg c m = s.reg c m) ∧
          (s.mem.upsets = [] → t.mem.data = s.mem.data ∧ t.mem.tags = s.mem.tags))) ∧
    (∀ rd i l, s.coreOn c = true → findAt (fun (l : Load) => l.rd == rd) (s.core c).loads = some (i, l) → l.poison = false →
      Completes (exec (.ldmDataReturn c rd []) s) fun t =>
        t.reg c rd = (if rd = 0 then 0 else loadValue l.sx ((l.data.drop (l.dpa % 128)).take l.size)) ∧
        (∀ m, m ≠ rd → t.reg c m = s.reg c m) ∧ (t.core c).loads = (s.core c).loads.eraseIdx i ∧
        t = { s.start with cores := t.cores } ∧ ∀ e, e ≠ c → t.core e = s.core e)

/-- R214: URD reads the unit registers with the values they stand for, and a number that R214 does not list raises ILLEGAL_INSTR; UWR changes only
the writable ones: the sticky flags are cleared where ones are written, the trap vector takes the word; TURNRD reads the turn counter and the
phase together (which of them a register named twice keeps is a free choice, log entry 8). CYCLES (0x00A) is a free value (log entry 7), which URD
reads as any other. -/
def Obligations.UnitRegisters : Prop :=
  ∀ (c : Nat) (w : Word) (s : State),
    let n := w.toNat % 2 ^ 12
    (s.Issues c 0x60 (resI ||| 0xFFFFF000 ||| 0x1F * 2 ^ 46) [] w →
      (∀ v, n ≠ 0x00A → s.ureg c n = some v → Completes (exec (.urd c w) s) fun t => s.WroteReg t c (fRd w) v (s.pc c + 8) ∧ s.OnlyCore t c) ∧
      (n = 0x00A → Completes (exec (.urd c w) s) fun t => ∃ v, s.WroteReg t c (fRd w) v (s.pc c + 8)) ∧
      (s.ureg c n = none → Completes (exec (.urd c w) s) fun t => t = ((s.atIssue c).ctlFault c 0x0101 0).settle s)) ∧
    (s.ureg c 0x002 = some (s.core c).handle ∧ s.ureg c 0x003 = some (s.core c).karg ∧ s.ureg c 0x008 = some s.turn.count ∧
      s.ureg c 0x009 = some (s.turn.phase.zeroExtend 64) ∧ s.ureg c 0x028 = some (s.core c).trapVec ∧
      s.ureg c 0x029 = some (s.core c).trapPc ∧ s.ureg c 0x02A = some (s.core c).trapCause ∧ s.ureg c 0x004 = none ∧
      s.ureg c 0x180 = none) ∧
    (s.Issues c 0x61 (resI ||| 0xFFFFF000 ||| 0x1F * 2 ^ 51) [fRa w] w →
      (∀ v, s.ureg c n = some v → Completes (exec (.uwr c w) s) fun t =>
        t.core c = { (s.core c).setUreg n (s.reg c (fRa w)) with pc := s.pc c + 8, ibuf := (t.core c).ibuf, tlb := (t.core c).tlb } ∧
        s.OnlyCore t c) ∧
      (s.ureg c n = none → Completes (exec (.uwr c w) s) fun t => t = ((s.atIssue c).ctlFault c 0x0101 0).settle s)) ∧
    (∀ (k : CoreSt) (v : Word), k.setUreg 0x008 v = k ∧ (k.setUreg 0x028 v).trapVec = v ∧ (k.setUreg 0x029 v) = k ∧
      (k.setUreg 0x019 v).vorg = v &&& 0xFFFFFFFFFFFF ∧ (k.setUreg 0x018 v).vrange = v &&& 0x7F3F ∧
      (k.setUreg 0x022 v).drawStream = v.truncate 16 ∧
      (∀ b, b < 8 → (k.setUreg 0x012 v).accFlags.testBit b = (k.accFlags.testBit b && !v.getLsbD b)) ∧
      (∀ b, b < 8 → (k.setUreg 0x01A v).vflags.testBit b = (k.vflags.testBit b && !v.getLsbD b))) ∧
    (s.Issues c 0x62 (resR ||| 0x1F * 2 ^ 41) [] w → Completes (exec (.turnrd c w) s) fun t =>
      (fRd w ≠ fRa w → t.reg c (fRd w) = (if fRd w = 0 then 0 else s.turn.count) ∧
        t.reg c (fRa w) = (if fRa w = 0 then 0 else s.turn.phase.zeroExtend 64)) ∧
      (fRd w = fRa w → fRd w ≠ 0 → t.reg c (fRd w) = s.turn.count ∨ t.reg c (fRd w) = s.turn.phase.zeroExtend 64) ∧
      (∀ m, m ≠ fRd w → m ≠ fRa w → t.reg c m = s.reg c m) ∧ t.pc c = s.pc c + 8 ∧ ∀ e, e ≠ c → t.core e = s.core e)

/-- R213, R232, R237: FENCE, when the waits it selects are over, writes the gather buffer back if asked and goes on, and until then nothing happens;
EXIT, with nothing outstanding on the core, ends the kernel there with its code, and otherwise lets no further instruction issue; TRAPRET leaves the
handler for the trapped instruction or the one after it, and outside a handler raises ILLEGAL_INSTR. -/
def Obligations.FenceExitTrapret : Prop :=
  ∀ (c : Nat) (w : Word) (s : State),
    (s.Issues c 0x63 (resI ||| 0xFFFFFFF8) [] w → s.fenced c (w.toNat % 8) = true → Completes (exec (.coreFence c w) s) fun t =>
      t.pc c = s.pc c + 8 ∧ (∀ m, t.reg c m = s.reg c m) ∧ t.mem = (s.atIssue c).mem ∧ (w.toNat % 2 = 0 → s.OnlyCore t c) ∧
      (w.toNat % 2 = 1 → ∀ g ∈ (t.core c).gather, g.dirty = [])) ∧
    (s.Issues c 0x63 (resI ||| 0xFFFFFFF8) [] w → s.fetchFault c = none → s.fenced c (w.toNat % 8) = false →
      Completes (exec (.coreFence c w) s) fun t => t = s.start) ∧
    (s.Issues c 0x64 resI [] w →
      ((s.core c).quiet = true → Completes (exec (.exitKernel c w) s) fun t => t = ((s.atIssue c).endOnCore c (w.toNat % 256)).settle s ∧
        (∀ x k, s.ownerOf c = some (x, k) → (t.core c).running = false)) ∧
      ((s.core c).quiet = false → Completes (exec (.exitKernel c w) s) fun t =>
        t.core c = { s.core c with exiting := some (w.toNat % 256), ibuf := (t.core c).ibuf, tlb := (t.core c).tlb } ∧ s.OnlyCore t c ∧
        t.canIssue c = false)) ∧
    (s.Issues c 0x65 (resI ||| 0xFFFFFFFE) [] w →
      ((s.core c).inHandler = true → Completes (exec (.trapret c w) s) fun t =>
        t.core c = { s.core c with inHandler := false, pc := ((s.core c).trapPc + BitVec.ofNat 64 (8 * (w.toNat % 2))).toNat,
                                   ibuf := (t.core c).ibuf, tlb := (t.core c).tlb } ∧ s.OnlyCore t c) ∧
      ((s.core c).inHandler = false → Completes (exec (.trapret c w) s) fun t => t = ((s.atIssue c).ctlFault c 0x0101 0).settle s))

/-- R140: the state word of a slot has FULL in bit 15, zero in bits 14 to 12, and C, F and D below it. R141: arming sets the slot EMPTY with
C = F; a fill in EMPTY and a drain in FULL count C down, and the last one turns the slot over with the other count; a fill in FULL and a drain in
EMPTY change nothing. -/
def Obligations.SlotUpdates : Prop :=
  ∀ l : Slot,
    (∀ f d, Slot.arm f d = { full := false, c := f, f := f, d := d }) ∧
    (l.full = false → 2 ≤ l.c → l.fill = { l with c := l.c - 1 }) ∧ (l.full = false → l.c = 1 → l.fill = { l with full := true, c := l.d }) ∧
    (l.full = true → l.fill = l) ∧
    (l.full = true → 2 ≤ l.c → l.drain = { l with c := l.c - 1 }) ∧ (l.full = true → l.c = 1 → l.drain = { l with full := false, c := l.f }) ∧
    (l.full = false → l.drain = l) ∧
    (1 ≤ l.c → l.c < 16 → 1 ≤ l.f → l.f < 16 → 1 ≤ l.d → l.d < 16 →
      slotOf l.word = l ∧ l.word < 2 ^ 16 ∧ l.word.testBit 15 = l.full ∧ l.word / 2 ^ 12 % 8 = 0 ∧ l.word / 2 ^ 8 % 16 = l.c ∧
        l.word / 2 ^ 4 % 16 = l.f ∧ l.word % 16 = l.d)

/-- R227: a slot instruction whose slot lies below 16 × S and passes takes effect and goes on: SARM arms the slot, SFILL fills it, SDRAIN drains it,
SWAIT leaves it, SPOLL reads its state word. Where updates of other accesses wait for their slots (R143, log entry 124), they are checked again
after an update, and may follow it. A slot that does not pass stalls the core, or is not ready under TRY; a slot beyond faults with SCRATCH_RANGE, and F or D of zero with
SLUICE_ARM. -/
def Obligations.SlotInstructions : Prop :=
  ∀ (c x k : Nat) (w : Word) (s : State), s.ownerOf c = some (x, k) →
    let n := s.slotNo c w
    let l := s.lcore x k
    let u := s.atIssue c
    let trying := bitAt w 45
    let want := bitAt w 44
    let resArm := resS ||| 0x1F * 2 ^ 51 ||| 3 * 2 ^ 44
    let resUpd := resS ||| 0x1F * 2 ^ 51 ||| 0x1FF * 2 ^ 36
    let resWait := resS ||| 0x1F * 2 ^ 51 ||| 0xFF * 2 ^ 36
    let resPoll := resS ||| 0x3FF * 2 ^ 36
    let after := fun (t : State) (l' : LCore) (v : Slot) => (∀ m, (t.lcore x k).slot m = l'.slot m) ∧
      (l.owed = [] → (t.lcore x k).slot n = v ∧ ∀ m, m ≠ n → (t.lcore x k).slot m = l.slot m) ∧ t.pc c = s.pc c + 8 ∧ t.mem = u.mem
    let held := fun (op : Nat) (t : State) =>
      t = (if trying then (u.writeBackAll c).notReady c n else (u.writeBackAll c).stallAt c op w).settle s
    let beyond := fun (t : State) => t = (u.ctlFault c 0x0102 n).settle s
    (s.Issues c 0x70 resArm [fRa w] w →
      (field w 40 4 ≠ 0 → field w 36 4 ≠ 0 → n < 16 * s.shelvesOf c → Completes (exec (.sarm c w) s) fun t =>
        after t (l.armSlot n (field w 40 4) (field w 36 4)) (Slot.arm (field w 40 4) (field w 36 4))) ∧
      (field w 40 4 = 0 ∨ field w 36 4 = 0 → Completes (exec (.sarm c w) s) fun t => t = (u.ctlFault c 0x0105 n).settle s) ∧
      (field w 40 4 ≠ 0 → field w 36 4 ≠ 0 → 16 * s.shelvesOf c ≤ n → Completes (exec (.sarm c w) s) beyond)) ∧
    (s.Issues c 0x71 resUpd [fRa w] w →
      (n < 16 * s.shelvesOf c → (l.slot n).full = false →
        Completes (exec (.sfill c w) s) fun t => after t (l.update true [n]) (l.slot n).fill) ∧
      (n < 16 * s.shelvesOf c → (l.slot n).full = true → Completes (exec (.sfill c w) s) (held 0x71)) ∧
      (16 * s.shelvesOf c ≤ n → Completes (exec (.sfill c w) s) beyond)) ∧
    (s.Issues c 0x72 resUpd [fRa w] w →
      (n < 16 * s.shelvesOf c → (l.slot n).full = true →
        Completes (exec (.sdrain c w) s) fun t => after t (l.update false [n]) (l.slot n).drain) ∧
      (n < 16 * s.shelvesOf c → (l.slot n).full = false → Completes (exec (.sdrain c w) s) (held 0x72)) ∧
      (16 * s.shelvesOf c ≤ n → Completes (exec (.sdrain c w) s) beyond)) ∧
    (s.Issues c 0x73 resWait [fRa w] w →
      (n < 16 * s.shelvesOf c → (l.slot n).full = want → Completes (exec (.swait c w) s) fun t => after t l (l.slot n)) ∧
      (n < 16 * s.shelvesOf c → (l.slot n).full ≠ want → Completes (exec (.swait c w) s) (held 0x73)) ∧
      (16 * s.shelvesOf c ≤ n → Completes (exec (.swait c w) s) beyond)) ∧
    (s.Issues c 0x74 resPoll [fRa w] w →
      (n < 16 * s.shelvesOf c → Completes (exec (.spoll c w) s) fun t =>
        after t l (l.slot n) ∧ t.reg c (fRd w) = (if fRd w = 0 then 0 else BitVec.ofNat 64 (l.slot n).word) ∧
        ∀ m, m ≠ fRd w → t.reg c m = s.reg c m) ∧
      (16 * s.shelvesOf c ≤ n → Completes (exec (.spoll c w) s) beyond))

/-! ## The vector engine -/

/-- R160, R162, R221: a V3 instruction that issues with its fields in order and an empty queue computes on the registers at once (log entry 14) and
the control core goes on; memory, scratchpads and the other cores stay as they were. A reserved field raises ILLEGAL_INSTR, a failed check of R221
or R222 a precise VEC_OPERAND record, and a queue of sixteen stalls the control core. -/
def Obligations.VectorCompute : Prop :=
  ∀ (op c : Nat) (w : Word) (s : State) (i : Instr), v3Instr op c w = some i → s.Issues c op 0 (v3Regs w) w →
    let v := s.capture c op w (v3Regs w) []
    (vLayout w = true → s.vecIssueFault c v = none → (s.core c).vq = [] → (s.core c).vbad = [] → (s.core c).vsoft = [] →
      Completes (exec i s) fun t =>
        t.core c = ({ (s.core c) with pc := s.pc c + 8, stallTicks := Tab.del (s.core c).stallTicks 2, ibuf := (t.core c).ibuf,
                                      tlb := (t.core c).tlb } : CoreSt).vecCompute v ∧
        t.mem = (s.atIssue c).mem ∧ t.ctxs = (s.atIssue c).ctxs ∧ ∀ e, e ≠ c → t.core e = s.core e) ∧
    (vLayout w = false → Completes (exec i s) fun t => t = ((s.atIssue c).ctlFault c 0x0101 0).settle s) ∧
    (vLayout w = true → ∀ code, s.vecIssueFault c v = some code → Completes (exec i s) fun t =>
      t = ((s.atIssue c).fault c 3 0 code (faultStatus code) true (some (s.pc c)) 0 []).settle s) ∧
    (vLayout w = true → s.vecIssueFault c v = none → 16 ≤ (s.core c).vq.length → Completes (exec i s) fun t =>
      (t.core c).stall = some { opc := op, word := w } ∧ t.pc c = s.pc c ∧ (t.core c).vq = (s.core c).vq)

/-- R162, R163, R222: what an element-wise instruction of 32-bit results does to the tile registers: an active element of a row in range takes the
operation of its sources; an inactive one of such a row keeps its value, or becomes zero under ZERO; every other element of every tile keeps its
value, and so does every mask. -/
def Obligations.ElementwiseResult : Prop :=
  ∀ (k : CoreSt) (v : VecOp) (t i j : Nat),
    (0xA0 ≤ v.opc ∧ v.opc ≤ 0xA8) ∨ v.opc = 0xAA ∨ (0xB0 ≤ v.opc ∧ v.opc ≤ 0xBA) ∨ (0xC0 ≤ v.opc ∧ v.opc ≤ 0xC4) →
    vFirst v.vrange + vCount v.vrange ≤ 64 → t < 16 → i < 64 → j < k.awidth → k.awidth ≤ 64 →
    let old := k.tile t i j
    let inRange := vFirst v.vrange ≤ i ∧ i < vFirst v.vrange + vCount v.vrange
    let new := (elem32 v.opc (vCode v.word) (k.src v 0 i j) (k.src v 1 i j) (k.src v 2 i j)).1
    (t = vTd v.word → inRange → k.maskBit (vMk v.word) i j = true → (k.vecCompute v).tile t i j = new % 2 ^ 32) ∧
    (t = vTd v.word → inRange → k.maskBit (vMk v.word) i j = false → (k.vecCompute v).tile t i j = if vPol v.word then 0 else old) ∧
    (t ≠ vTd v.word ∨ ¬ inRange → (k.vecCompute v).tile t i j = old) ∧ (k.vecCompute v).masks = k.masks ∧
    (k.vecCompute v).regs = k.regs ∧ (k.vecCompute v).pc = k.pc ∧
    k.vflags ||| (k.vecCompute v).vflags = (k.vecCompute v).vflags

/-- R169: the I32 instructions wrap modulo 2^32, compare as signed numbers, and shift by the amount modulo 32; FNEG and FABS touch the sign bit
alone and raise no flag. -/
def Obligations.IntegerElements : Prop :=
  ∀ a b c code : Nat, a < 2 ^ 32 → b < 2 ^ 32 →
    (elem32 0xB0 code a b c) = ((a + b) % 2 ^ 32, 0) ∧ (elem32 0xB1 code a b c) = ((a + 2 ^ 32 - b) % 2 ^ 32, 0) ∧
    (elem32 0xB2 code a b c) = ((a * b) % 2 ^ 32, 0) ∧
    (elem32 0xB3 code a b c) = (if (BitVec.ofNat 32 a).toInt < (BitVec.ofNat 32 b).toInt then a else b, 0) ∧
    (elem32 0xB4 code a b c) = (if (BitVec.ofNat 32 a).toInt < (BitVec.ofNat 32 b).toInt then b else a, 0) ∧
    (elem32 0xB8 code a b c) = ((a * 2 ^ (b % 32)) % 2 ^ 32, 0) ∧ (elem32 0xB9 code a b c) = (a / 2 ^ (b % 32), 0) ∧
    (elem32 0xA5 code a b c) = ((a + 2 ^ 31) % 2 ^ 32, 0) ∧ (elem32 0xA6 code a b c) = (a % 2 ^ 31, 0) ∧
    (elem32 0xAA code a b c) = (a, 0)

/-- R160, R165, R178, R179, R181 to R183, R224, R225: VLD, VST, QUANT, COMBW and COMBC, once issued with their checks passed, an empty queue and slots
that pass, run at once: VLD, VST and QUANT from their captured registers, COMBW and COMBC from their block of 64 bytes; the control core goes on.
A load whose rows hold no error writes each active element of its tile with the value of its bytes. -/
def Obligations.VectorMemory : Prop :=
  ∀ (c : Nat) (w : Word) (s : State),
    (∀ op i, (op = 0xE4 ∧ i = .vld c w) ∨ (op = 0xE5 ∧ i = .vst c w) ∨ (op = 0xE6 ∧ i = .quant c w) → s.Issues c op 1 (vmRegs w) w →
      let v := s.capture c op w (vmRegs w) []
      s.vecIssueFault c v = none → (s.core c).vq = [] →
      ((((s.atIssue c).modCore c fun k => { k with vq := k.vq ++ [v] }).advance c).vecCheck c v = .pass) →
      Completes (exec i s) fun t =>
        t = (((s.atIssue c).vecTaken c v).vecRun c v).settle s ∧ (∀ n, t.reg c n = s.reg c n) ∧ t.pc c = s.pc c + 8 ∧
        (op = 0xE4 → s.cleanScratch c → (s.core c).vbad = [] → (s.core c).vsoft = [] → mForm w ≠ 1 → (s.core c).awidth ≤ 64 →
          (((s.core c).touched v).all fun r => s.inShelves c (512 * r) 512) = true → ∀ ti tj, ti < 64 → tj < 64 →
          (s.core c).maskBit (vMk w) ti tj = true → (t.core c).tile (vTd w) ti tj =
            (loadElem v (gatherElem v (((s.core c).touched v).map fun r => (r, Tab.span (s.lcoreOf c).rows 0 (512 * r) 512)) ti tj)).1 %
              2 ^ 32)) ∧
    (∀ op i, (op = 0xE8 ∧ i = .combw c w) ∨ (op = 0xE9 ∧ i = .combc c w) → s.Issues c op (resU ||| 7 * 2 ^ 53) [fUra w] w →
      let a := s.reg c (fUra w)
      let r := (s.atIssue c).readBlock c a.toNat 64
      let v := r.1.capture c op w [] r.2.1
      (∀ code, s.blockFault c a 64 = some code → Completes (exec i s) fun t =>
        t = ((s.atIssue c).fault c 3 0 code (faultStatus code) true (some (s.pc c)) a.toNat []).settle s) ∧
      (s.blockFault c a 64 = none → r.2.2 = true → Completes (exec i s) fun t =>
        t = (r.1.fault c 3 0 0x010A 0x06 false (some (s.pc c)) a.toNat []).settle s) ∧
      (s.blockFault c a 64 = none → r.2.2 = false → r.1.vecIssueFault c v = none → (s.core c).vq = [] →
        (((r.1.modCore c fun k => { k with vq := k.vq ++ [v] }).advance c).vecCheck c v = .pass) →
        Completes (exec i s) fun t =>
          t = ((r.1.vecTaken c v).vecRun c v).settle s ∧ (∀ n, t.reg c n = s.reg c n) ∧ t.pc c = s.pc c + 8))

/-- R174, R206, R223: SUMM, its checks passed and the queue empty, computes its summary from the registers at once and lets rd wait for it; the oldest
summary is then written to its register, and nothing else of the core changes but that summary and what is counted. A reserved CODE raises
ILLEGAL_INSTR (R205). -/
def Obligations.Summaries : Prop :=
  ∀ (c : Nat) (w : Word) (s : State),
    (s.Issues c 0xE0 (2 ^ 26 - 1) [] w →
      let v := s.capture c 0xE0 w [] []
      (11 < w.toNat / 2 ^ 28 % 16 → Completes (exec (.summ c w) s) fun t => t = ((s.atIssue c).ctlFault c 0x0101 0).settle s) ∧
      (w.toNat / 2 ^ 28 % 16 ≤ 11 → s.vecIssueFault c v = none → (s.core c).vq = [] → (s.core c).vbad = [] → (s.core c).vsoft = [] →
      Completes (exec (.summ c w) s) fun t =>
        (t.core c).sums.getLast? = some (fRd w, ((s.core c).summary v).1) ∧ (fRd w ≠ 0 → (t.core c).awaits (fRd w) = true) ∧
        (t.core c).vflags = (s.core c).vflags ||| ((s.core c).summary v).2 ∧ t.pc c = s.pc c + 8 ∧ (∀ n, t.reg c n = s.reg c n) ∧
        (t.core c).tiles = (s.core c).tiles ∧ (t.core c).masks = (s.core c).masks ∧ t.mem = (s.atIssue c).mem)) ∧
    (∀ cycles rd x r, s.coreOn c = true → (s.core c).sums = (rd, x) :: r → Completes (exec (.summaryWrite c cycles) s) fun t =>
      t.reg c rd = (if rd = 0 then 0 else x) ∧ (∀ n, n ≠ rd → t.reg c n = s.reg c n) ∧
      t.core c = { s.core c with sums := r, regs := (t.core c).regs } ∧ (∀ e, e ≠ c → t.core e = s.core e) ∧ t.mem = s.mem)

/-! ## Unit instructions, arrays, the leat, sluices -/

/-- R78, R206, R207, R216, R219, R228: PASS, LMOVE, LSTREAM, LWALK and REMOTE read their parameter block from the scratchpad when they issue and put
the operation at the end of their unit's queue, with the place of the instruction; the control core goes on, its registers unchanged. A queue that
is full stalls it. A block whose address is out of range or not aligned raises the precise fault of R130. -/
def Obligations.UnitInstructions : Prop :=
  ∀ (c : Nat) (w : Word) (s : State),
    let a := s.reg c (fUra w)
    let blk := fun (n : Nat) => (s.atIssue c).readBlock c a.toNat n
    let on := fun (t : State) => (∀ n, t.reg c n = s.reg c n) ∧ t.pc c = s.pc c + 8
    let stalls := fun (op : Nat) (t : State) => (t.core c).stall = some { opc := op, word := w } ∧ t.pc c = s.pc c
    let arr := w.toNat / 2 ^ 53 % 8
    let entry := fun (b : Bytes) => ({ block := b, key := (s.core c).drawKey, stream := (s.core c).drawStream, codeOff := s.pc c } : PassQ)
    (s.Issues c 0x80 resU [fUra w] w →
      (∀ code, s.blockFault c a 128 = some code → Completes (exec (.pass c w) s) fun t =>
        t = ((s.atIssue c).fault c 4 0 code (faultStatus code) true (some (s.pc c)) a.toNat []).settle s) ∧
      (s.blockFault c a 128 = none → (blk 128).2.2 = false → (blk 128).1.passIssueFault c arr (blk 128).2.1 = none →
        ((s.array c arr).queue.length < 4 → Completes (exec (.pass c w) s) fun t =>
          on t ∧ (t.array c arr).queue = (s.array c arr).queue ++ [entry (blk 128).2.1] ∧ t.mem = (s.atIssue c).mem) ∧
        (4 ≤ (s.array c arr).queue.length → Completes (exec (.pass c w) s) (stalls 0x80)))) ∧
    (∀ op kind i, (op = 0x90 ∧ kind = 0 ∧ i = .lmove c w) ∨ (op = 0x91 ∧ kind = 1 ∧ i = .lstream c w) ∨
        (op = 0x92 ∧ kind = 2 ∧ i = .lwalk c w) → s.Issues c op (resU ||| 7 * 2 ^ 53) [fUra w] w →
      (∀ code, s.blockFault c a 64 = some code → Completes (exec i s) fun t =>
        t = ((s.atIssue c).fault c 2 0 code (faultStatus code) true (some (s.pc c)) a.toNat []).settle s) ∧
      (s.blockFault c a 64 = none → (blk 64).2.2 = false → (blk 64).1.leatIssueFault c kind (blk 64).2.1 = none →
      ((s.core c).leat.length < 8 → Completes (exec i s) fun t =>
        on t ∧ (t.core c).leat = (s.core c).leat ++ [{ kind, block := (blk 64).2.1, codeOff := s.pc c }] ∧ t.mem = (s.atIssue c).mem) ∧
      (8 ≤ (s.core c).leat.length → Completes (exec i s) (stalls op)))) ∧
    (s.Issues c 0xF0 (resU ||| 7 * 2 ^ 53) [fUra w] w →
      (∀ code, s.blockFault c a 64 = some code → Completes (exec (.remote c w) s) fun t =>
        t = ((s.atIssue c).fault c 5 0 code (faultStatus code) true (some (s.pc c)) a.toNat []).settle s) ∧
      (s.blockFault c a 64 = none → (blk 64).2.2 = false → (blk 64).1.remoteIssueFault c (blk 64).2.1 = none →
      ((s.core c).remotes.length < 16 → Completes (exec (.remote c w) s) fun t =>
        t = (((((blk 64).1.modCore c fun k => { k with remotes := k.remotes ++ [{ block := (blk 64).2.1, codeOff := s.pc c }] }).advance
          c).remoteGo c).settle s)) ∧
      (16 ≤ (s.core c).remotes.length → Completes (exec (.remote c w) s) (stalls 0xF0)))) ∧
    (∀ (cycles : Nat) (z : Stall), (s.core c).stall = some z → s.coreOn c = true → s.controlSlot c z = none →
      s.queueRoom c (unitOf z.opc z.word) = true → Completes (exec (.unitQueueAccept c cycles) s) fun t =>
        t = ((if unitOf z.opc z.word = .vector then s.start.bumpCore c 14 cycles else s.start).retryControl c z).settle s ∧
        (z.opc = 0x80 → s.cleanScratch c → (∀ r, z.word = w → s.blockFault c a 128 = none → r = s.start.readBlock c a.toNat 128 →
          r.1.passIssueFault c arr r.2.1 = none → (t.core c).stall = none ∧ on t ∧
            (t.array c arr).queue = (s.array c arr).queue ++ [entry r.2.1])))

/-- R103: a term t = p × 2^(16 − w) that is whole enters as itself; any other enters as its floor f, or as f + 1 where the byte u is below
(t − f) × 256, and its loss is noted. R107, R108: a term added to an accumulator that is NaR or saturated changes nothing; a sum within ±LIM is kept
exactly as rounded to the window; a sum beyond it saturates in the last attempt and loses the attempt before. -/
def Obligations.AccumulatorTerm : Prop :=
  accLim = 2 ^ 79 - 2 ^ 16 ∧
  (∀ (p : Exact) (w : Int) (u : Nat), 0 < p.d →
    let num : Int := if w ≤ 16 then p.n * 2 ^ (16 - w).toNat else p.n
    let den : Int := if w ≤ 16 then p.d else p.d * 2 ^ (w - 16).toNat
    (∀ f, num = f * den → srUnits p w u = (f, false)) ∧
    (∀ f, f * den < num → num < (f + 1) * den → srUnits p w u = (if u * den < (num - f * den) * 256 then f + 1 else f, true))) ∧
  ∀ (r : Adding) (last : Bool) (win : Int) (key u : Nat) (p : Exact),
    let old := Tab.look r.acc 0 key
    let v := old.toInt + (srUnits p win u).1
    (old = accNaR ∨ key ∈ r.sats → r.term last win key u p = r) ∧
    (old ≠ accNaR → key ∉ r.sats → inLim v = true →
      Tab.look (r.term last win key u p).acc 0 key = BitVec.ofInt 80 v ∧ (r.term last win key u p).past = r.past ∧
      ∀ k, k ≠ key → Tab.look (r.term last win key u p).acc 0 k = Tab.look r.acc 0 k) ∧
    (old ≠ accNaR → key ∉ r.sats → inLim v = false → last = true →
      Tab.look (r.term last win key u p).acc 0 key = BitVec.ofInt 80 (if v < 0 then -accLim else accLim) ∧
      key ∈ (r.term last win key u p).sats) ∧
    (old ≠ accNaR → key ∉ r.sats → inLim v = false → last = false →
      (r.term last win key u p).acc = r.acc ∧ (r.term last win key u p).past = true)

/-- R74, R82, R85, R95, R107 to R109, R115, R144: the steps of a pass in its array. A pass whose slot and fills are ready starts, and a preload that
needs a shift is read into an empty slot before it; an issue cycle takes
its steps in the tile slot of the pass; an abandoned attempt starts again with the window 8 higher; a landed pass leaves the queue as its drain
begins and its flags enter ACC_FLAGS; the end of a partial drain frees the slot. None of them touches device memory, but a final drain. -/
def Obligations.ArraySteps : Prop :=
  ∀ (c a : Nat) (s : State), a < 8 → s.coreOn c = true →
    let y := s.array c a
    let b := !y.next
    (∀ q sa sb ss, y.queue[y.started]? = some q → y.startReady (passOf q.block) = true → s.fillCheck c (passOf q.block) = .pass →
      Completes (exec (.passStart c a sa sb ss) s) fun t =>
        t = (((((s.start.bumpA c a 3 sa).bumpA c a 4 sb).bumpA c a 5 ss).clearStall c (4 + a)).startPass c a q).settle s) ∧
    (∀ q cycles, y.queue[y.started]? = some q → (passOf q.block).needsShift = true → (y.slot y.next).use = .empty →
      s.preCheck c (passOf q.block) = .pass → Completes (exec (.preloadShift c a cycles) s) fun t =>
        t = (((s.start.bumpA c a 5 cycles).clearStall c (4 + a)).doPreload c a q y.next fun z => { z with use := .preload }).settle s) ∧
    (∀ q ha hb u stallA stallB, (y.slot b).pass = some q → (y.slot b).use = .pass → (y.slot b).replay = false →
      (s.activity c a).level ≠ 0 →
      pullBlocks (passOf q.block).srcA (y.slot b).fmtA (((y.slot b).cycleSteps (passOf q.block)).getLast?.getD (y.slot b).nextK)
        (y.slot b).hopA y.streamA = some ha →
      pullBlocks (passOf q.block).srcB (y.slot b).fmtB (((y.slot b).cycleSteps (passOf q.block)).getLast?.getD (y.slot b).nextK)
        (y.slot b).hopB y.streamB = some hb →
      u = ({ y.slot b with hopA := ha.1.data, hopB := hb.1.data, tabs := ((y.slot b).tabs ++ ha.1.tabs ++ hb.1.tabs).eraseDups,
                           srcsA := (y.slot b).srcsA ++ ha.1.src, srcsB := (y.slot b).srcsB ++ hb.1.src,
                           poisoned := (y.slot b).poisoned || ha.1.poison || hb.1.poison,
                           poisonB := (y.slot b).poisonB || hb.1.poison } : TileSlot).issue q (passOf q.block) →
      Completes (exec (.operandStep c a ⟨none, stallA, stallB⟩) s) fun t =>
        ((u.2 = false → (t.array c a).slot b = u.1) ∧ (u.2 = true → (y.slot b).lastAttempt = false → ((t.array c a).slot b).use = .abandoned)) ∧
        (t.array c a).slot y.next = y.slot y.next ∧ (t.array c a).queue = y.queue ∧ (t.array c a).streamA = ha.2 ∧
        (t.array c a).streamB = hb.2 ∧ (Tab.look t.units.activity {} (s.physArray c a)).gap = 0 ∧ t.mem = s.mem ∧ t.ctxs = s.ctxs) ∧
    (∀ q cycles da db dest v sa sb sd, (y.slot b).pass = some q → (y.slot b).use = .abandoned →
      ((s.start.bumpA c a 8 1).bumpA c a 9 cycles).readSide c (passOf q.block).srcA (passOf q.block).descA = (sa, .inr da) →
      sa.readSide c (passOf q.block).srcB (passOf q.block).descB = (sb, .inr db) → sb.readDest c (passOf q.block) = (sd, .inr dest) →
      (sd.readPreload c (passOf q.block) q (y.slot b) da.scale db.scale ((y.slot b).window + 8) true).2 = .inr v →
      Completes (exec (.attemptRestart c a cycles) s) fun t =>
        ((t.array c a).slot b).attempt = (y.slot b).attempt + 1 ∧ ((t.array c a).slot b).window = (y.slot b).window + 8 ∧
        ((t.array c a).slot b).nextK = 0 ∧ (((t.array c a).slot b).use = .pass ∨ ((t.array c a).slot b).use = .abandoned)) ∧
    (∀ q cycles f sa, (y.slot b).pass = some q → (y.slot b).use = .abandoned →
      ((s.start.bumpA c a 8 1).bumpA c a 9 cycles).readSide c (passOf q.block).srcA (passOf q.block).descA = (sa, .inl f) →
      Completes (exec (.attemptRestart c a cycles) s) fun t => t = (sa.passFault c a f.1 q f.2).settle s) ∧
    (∀ q, y.queue = [q] → (y.slot (y.slotOfEntry 0)).use = .landed → s.sluiceCheck c (passOf q.block).slDrain true = .pass →
      let z := y.slotOfEntry 0
      let out := (y.slot z).drainOut (passOf q.block) q s.turn.count
      Completes (exec (.drainBegin c a none) s) fun t =>
        (t.array c a).queue = [] ∧ ((t.array c a).slot z).use = .draining ∧ ((t.array c a).slot z).outRows = out.1 ∧
        ((t.array c a).slot z).outPass = some q ∧ (t.core c).accFlags = (s.core c).accFlags ||| out.2.2 ∧ t.mem = s.mem) ∧
    (∀ q, y.queue = [q] → (y.slot (y.slotOfEntry 0)).use = .landed → ∀ n, s.sluiceCheck c (passOf q.block).slDrain true = .notReady n →
      Completes (exec (.drainBegin c a none) s) fun t => t = (s.start.passFault c a 0x0104 q n).settle s) ∧
    (let z := if (y.slot y.next).use = .draining then y.next else !y.next
     ∀ q cycles, (y.slot z).outPass = some q → (y.slot z).use = .draining →
      let s1 := if (y.slot z).sharedPre then s.start.bumpA c a 5 cycles else s.start
      (∀ tr, (y.slot z).outTrailer = some tr → Completes (exec (.drainDone c ⟨a, cycles⟩) s) fun t =>
        ((t.array c a).slot z).use = (if (y.slot z).sharedPre then .preload else .empty) ∧ ((t.array c a).slot z).outPass = none ∧
        (t.array c a).queue = y.queue ∧ t.mem = s.mem) ∧
      (∀ d, (y.slot z).outTrailer = none → d = (y.slot z).outDest.getD (descOf []) →
        (s1.rowsFault (s1.agent c 6) d (List.range (min (passOf q.block).m d.rows)) = none →
          Completes (exec (.drainDone c ⟨a, cycles⟩) s) fun t =>
            ((t.array c a).slot z).use = (if (y.slot z).sharedPre then .preload else .empty) ∧ (t.array c a).queue = y.queue) ∧
        (∀ f, s1.rowsFault (s1.agent c 6) d (List.range (min (passOf q.block).m d.rows)) = some f →
          Completes (exec (.drainDone c ⟨a, cycles⟩) s) fun t => t = (s1.passFault c a f.1 q f.2).settle s)))

/-- R95 to R97: a filler step changes no tile, sum, mark or flag; a grant moves the level of no array by more than one, and of none that has not
asked or may not; the tests of a unit change nothing but the lists of failing columns and lanes, and what is due (R92, R186, R561). -/
def Obligations.ArrayActivityAndTests : Prop :=
  ∀ s : State, s.serving = true →
    (∀ c a cycles, c < 128 → a < 8 →
      ((s.activity c a).level < 8 → s.operandsWait c a = true →
        Completes (exec (.fillerStep c a ⟨true, cycles⟩) s) fun t => t.units = s.units ∧ t.mem = s.mem ∧ t.ctxs = s.ctxs ∧
          ∀ z, (t.array c a).slot z = (s.array c a).slot z) ∧
      ((s.activity c a).level ≠ 0 → s.operandsWait c a = false → Completes (exec (.fillerStep c a ⟨false, cycles⟩) s) fun t =>
        (Tab.look t.units.activity {} (s.physArray c a)).gap = (s.activity c a).gap + cycles ∧
        (Tab.look t.units.activity {} (s.physArray c a)).level = (s.activity c a).level ∧
        (∀ z, (t.array c a).slot z = (s.array c a).slot z) ∧ (t.array c a).queue = (s.array c a).queue ∧ t.mem = s.mem)) ∧
    (∀ q n l, q < 4 → Tab.look s.units.interval 0 q ≤ n → Completes (exec (.levelChangeGrant q ⟨n, l⟩) s) fun t =>
      (∀ x, (Tab.look t.units.activity {} x).level ≤ (Tab.look s.units.activity {} x).level + 1 ∧
        (Tab.look s.units.activity {} x).level ≤ (Tab.look t.units.activity {} x).level + 1) ∧
      (∀ x, (∀ r ∈ l, r.1 = x → s.start.mayAsk r = false) → Tab.look t.units.activity {} x = Tab.look s.units.activity {} x) ∧
      Tab.look t.units.interval 0 q = n + 1 ∧ t.cores = s.cores ∧ t.mem = s.mem) ∧
    (∀ x, x < 1024 → s.arrayInUse x = false → .array x ∉ s.fw.retests → x ∈ s.units.testDue ∨ s.testDueNow x = true →
      Completes (exec (.arraySelfTest (.array x) []) s) fun t =>
        x ∉ t.units.testDue ∧ t.units.pendCols = s.units.pendCols ∧ t.cores = s.cores ∧
        t = { s with units := t.units, fw := t.fw, out := [] }) ∧
    (∀ x, x < 1024 → s.arrayInUse x = false → .array x ∈ s.fw.retests → Completes (exec (.arraySelfTest (.array x) []) s) fun t =>
        .array x ∉ t.fw.retests ∧ Tab.look t.units.fieldCols [] x = [] ∧ t.cores = s.cores) ∧
    (∀ c p, c < 128 → (s.core c).owner = none → .lanes c ∉ s.fw.retests → s.testDueNow (1024 + c) = true → p ∉ s.badLanes c →
      p ∉ Tab.look s.units.pendLanes [] c → Completes (exec (.arraySelfTest (.lanes c) [p]) s) fun t =>
        Tab.look t.units.pendLanes [] c = Tab.look s.units.pendLanes [] c ++ [p] ∧ t.cores = s.cores ∧ t.fw.fieldDirty = true) ∧
    (∀ c, c < 128 → (s.core c).running = false → .core c ∈ s.fw.retests → Completes (exec (.arraySelfTest (.core c) []) s) fun t =>
        c ∉ t.units.withdrawn ∧ .core c ∉ t.fw.retests ∧ t.cores = s.cores)

/-- R143 to R149, R153: a stalled access whose slots pass starts, with its cycles counted; one that has waited longer than the deadline of its context
ends its command as TIMED_OUT (status 0x04); a core that has been deadlocked longer than the interval ends its command as DEADLOCK (status 0x0F). -/
def Obligations.StallsEnd : Prop :=
  ∀ (c x k : Nat) (s : State), s.coreOn c = true → s.ownerOf c = some (x, k) →
    (∀ cycles z, (s.core c).stall = some z → s.headReady c .control = true → Completes (exec (.sluiceCheckPass c .control cycles) s) fun t =>
      t = (((s.start.bumpCore c 4 cycles).clearStall c 0).retryControl c z).settle s) ∧
    (∀ cycles e, s.headReady c e = true → Completes (exec (.sluiceCheckPass c e cycles) s) fun t =>
      (e = .vector → t = (vecDrain 17 c (s.start.bumpCore c 4 cycles)).settle s) ∧
      (e = .window → t = ((s.start.bumpCore c 4 cycles).remoteGo c).settle s) ∧
      (∀ a, e = .array a → t = ((s.start.bumpCore c 4 cycles).arrayGo c a).settle s)) ∧
    (∀ e slot off, s.overdue c e = some (slot, off) → Completes (exec (.sluiceTimeout c e) s) fun t =>
      t = ((s.start.bumpCore c 5 1).fault c (engineUnit e).1 (engineUnit e).2 0x0201 0x04 (e == .control) (some off) slot []).settle s ∧
      s.FailsWith t c 0x04) ∧
    (s.deadlocked c = true → s.params.deadlock < (s.core c).deadTicks → Completes (exec (.deadlock c) s) fun t =>
      t = ((s.start.bumpCore c 6 1).fault c 0 0 0x0202 0x0F false none (((s.deadEntries c).map fun e => e.1).headD 0)
        (packEntries ((s.deadEntries c).map fun e => e.2))).settle s ∧ s.FailsWith t c 0x0F)

/-- R220, R285 to R288, R290: the leat delivers the next unit of the first operation that can go on; a replay has delivered its blocks again and the
pass goes on; the copy of a layer into the prefetch buffer is then complete. -/
def Obligations.LeatProgress : Prop :=
  ∀ (c x k : Nat) (s : State), s.ownerOf c = some (x, k) →
    (∀ i o starved, s.coreOn c = true → (List.range 8).find? (fun i => s.leatMoves c i) = some i → (s.core c).leat[i]? = some o →
      Completes (exec (.leatDelivery c starved) s) fun t => t = ((s.start.bumpCore c 22 starved).leatGo c x i o).settle s) ∧
    (∀ a, s.coreOn c = true → a < 8 →
      let b := !(s.array c a).next
      ∀ q, ((s.array c a).slot b).pass = some q → ((s.array c a).slot b).use = .pass → ((s.array c a).slot b).replay = true →
      let p := passOf q.block
      let la := if p.srcA = 1 then ((s.array c a).slot b).srcsA else []
      let lb := if p.srcB = 1 then ((s.array c a).slot b).srcsB else []
      let ra := s.start.rereadSide c x la
      let rb := ra.1.rereadSide c x lb
      (∀ ha hb, ra.2 = .blocks ha → rb.2 = .blocks hb → Completes (exec (.streamReplay c a) s) fun t =>
        t = ((rb.1.modArray c a fun y => y.modSlot b fun u => u.replayed ha hb (p.srcA == 1) (p.srcB == 1)).bumpCore c 23
          (s.start.replayCount c (la ++ lb))).settle s ∧
        (t.array c a).slot b = ((rb.1.array c a).slot b).replayed ha hb (p.srcA == 1) (p.srcB == 1) ∧
        ((t.array c a).slot b).replay = false ∧ (t.array c a).slot (!b) = (rb.1.array c a).slot (!b)) ∧
      (∀ code addr, ra.2 = .bad code addr → Completes (exec (.streamReplay c a) s) fun t =>
        t = (rb.1.passFault c a code q addr).settle s)) ∧
    (∀ gen layer g, s.genBody x gen = some g → s.serving = true → (layer, false) ∈ g.prefetch →
      Completes (exec (.tierPrefetchDone x gen layer) s) fun t =>
        t = (((s.start.layerCopied x g layer).modGenBody x gen fun g =>
          { g with prefetch := modWhere (fun p => p.1 == layer) (fun p => (p.1, true)) g.prefetch }).bumpFw x 11
            ((g.layerRanges layer).map fun r => r.2).sum).settle s ∧
        ∀ g', (s.start.layerCopied x g layer).genBody x gen = some g' →
          (t.genBody x gen).map (fun b => b.prefetch) = some (modWhere (fun p => p.1 == layer) (fun p => (p.1, true)) g'.prefetch))

/-! ## Weight shards, reference collections, the patrol scrubber -/

/-- R276 to R279: what a source delivers is taken; a manifest that its source does not deliver, or whose SHA-512 is not the one of the command, ends
the load with status 0x03 or 0x0B;
each shard that arrives is noted with its outcome (0 good, 1 wrong digest, 2 failed authentication, 3 unreadable), and a shard whose read times out
as unreadable; the other shards keep theirs. While a shard is still out, nothing else of the generation changes but its image and the poison found in it.
Status 0x03 with DETAIL 0x0A for the missing manifest is the model's reading (log entry 22). -/
def Obligations.ShardsArrive : Prop :=
  ∀ (h : Word) (s : State) (l : LoadRun), s.loadRun h = some l → s.serving = true →
    (l.manifestDone = false → Completes (exec (.manifestArrival h none) s) fun t => t = (s.start.rejectLoad h l 0x03 0x0A).settle s) ∧
    (∀ d, l.manifestDone = false →
      let r := s.start.readSource (s.start.loadAt h l) l.manifestSrc l.manifestBytes (some d)
      (l.manifestSrc.2 ≠ 1 → r.2 = some (fitTo l.manifestBytes d)) ∧
      (r.2 = none → Completes (exec (.manifestArrival h (some d)) s) fun t => t = (r.1.rejectLoad h l 0x03 0x0A).settle s) ∧
      (∀ e, r.2 = some e → Completes (exec (.manifestArrival h (some d)) s) fun t => t = (r.1.takeManifest h l e).settle s ∧
        (sha512 e ≠ l.digest → t = (r.1.rejectLoad h l 0x0B 0).settle s))) ∧
    (∀ b m i j, s.shardDue h i = true → s.bodyAt (s.loadAt h l) = some b → b.manifest = some m → j ≠ i → j < b.count →
      Tab.look b.shards 0 j = 0 →
      let noted := fun (t : State) (out : Nat) => ∃ b', t.bodyAt (s.loadAt h l) = some b' ∧
        b' = { b with image := b'.image, badShards := b'.badShards, shards := Tab.put b.shards 0 i (out + 1) } ∧
        t.cmds.length = s.cmds.length ∧ t.cores = s.cores
      (∀ d, Completes (exec (.shardArrival h i d) s) fun t => noted t (shardOutcome l m i
        (s.start.readSource (s.start.loadAt h l) (s.start.shardSource h l i).1 (s.start.shardSource h l i).2 d).2).1) ∧
      Completes (exec (.shardReadTimeout h i) s) fun t => noted t 3 ∧ t.mem = s.mem)

/-- R280, R281: the digest scrub takes the next shard in turn. One that is as it should be changes nothing but whose turn it is and what is counted;
one that has been good and whose digest is wrong (code 1) or that holds poison (code 3) is marked for the next boundary; one that had not
been checked has the outcome of its check. -/
def Obligations.DigestScrub : Prop :=
  ∀ (x gen i : Nat) (s : State) (b : GenBody), s.serving = true → s.bodyAt (scrubAt x gen) = some b → b.nextCheck = some i →
    let coll := (scrubAt x gen).ctx.isNone
    (b.checkable i = false ∨ s.start.shardWrong b i = none → Completes (exec (.digestScrub x gen i) s) fun t =>
      t.bodyAt (scrubAt x gen) = some (b.checked i none coll) ∧ t.mem = s.mem ∧ t.cores = s.cores ∧ t.cmds = s.cmds) ∧
    (∀ code, b.checkable i = true → s.start.shardWrong b i = some code → Completes (exec (.digestScrub x gen i) s) fun t =>
      t.bodyAt (scrubAt x gen) = some (b.checked i (some code) coll) ∧ t.mem = s.mem ∧ t.cores = s.cores) ∧
    (Tab.look b.shards 0 i ≠ 0 →
      b.checked i none coll = { b with scrubNext := (i + 1) % max 1 b.count } ∧
      ∀ code, b.checked i (some code) coll = { b with scrubNext := (i + 1) % max 1 b.count, badShards := addNew i b.badShards }) ∧
    (Tab.look b.shards 0 i = 0 → ∀ code, Tab.look (b.checked i (some code) coll).shards 0 i = code + 1 ∧
      Tab.look (b.checked i none coll).shards 0 i = 1)

/-- R297, R299: the repair of a reference collection that is HELD. Copies that agree with their digests are good again, and where none then lacks the
collection is READY at the next boundary; without agreement and without a backing copy, the management is asked for each shard that lacks, and with
one nothing changes until it has been read; a shard from the backing copy is written and, if its digest
agrees, counts as good; a copy of every stored page in another quadrant is the new replica. -/
def Obligations.CollectionRepair : Prop :=
  ∀ (id : Nat) (s : State) (k : Coll), Tab.opt s.colls id = some k → s.serving = true →
    (∀ ok, k.body.st = .held → k.wantReplica = true → k.replica = false → k.readyNext = false → k.load = none →
      let right := k.body.lacking.all fun i => (s.start.shardWrong k.body i).isNone
      (ok = true → right = true → Completes (exec (.replicaVerifyDone id ok) s) fun t =>
        (∃ k', Tab.opt t.colls id = some k' ∧ k'.body.lacking = [] ∧ k'.body.st = .held ∧
          (k'.readyNext = true ↔ k'.body.goodCount = k'.body.count ∧ k'.body.badShards = [])) ∧ t.mem = s.mem ∧ t.ctxs = s.ctxs) ∧
      (ok = false ∨ right = false → k.backing = [] → Completes (exec (.replicaVerifyDone id ok) s) fun t =>
        t.colls = s.colls ∧ t.mem = s.mem ∧ t = (s.start.askShards id k.body.lacking).settle s) ∧
      (ok = false ∨ right = false → k.backing ≠ [] → Completes (exec (.replicaVerifyDone id ok) s) fun t => t = s.start)) ∧
    (∀ i d, k.body.st = .held → k.backing ≠ [] → i ∈ k.body.lacking →
      let w := s.start.shardWritten k.body i d
      (w.shardWrong k.body i = none → Completes (exec (.backingCopyDone id i d) s) fun t =>
        t = ((w.modBody (.coll id) fun b => { b with shards := Tab.put b.shards 0 i 1 }).collRestored id).settle s ∧ t.cores = s.cores) ∧
      (w.shardWrong k.body i ≠ none → Completes (exec (.backingCopyDone id i d) s) fun t =>
        t = (w.askShards id [i]).settle s ∧ t.cores = s.cores)) ∧
    (∀ l, k.wantReplica = true → k.replica = false → k.body.st = .ready →
      s.freeOf (((s.partQuads k.part).filter fun q => q ∉ ((k.body.pages.map fun e => dpaQuad (e.2 * Config.page)).eraseDups)).map
        s.localRange) k.body.pages.length = some l →
      Completes (exec (.replicaRebuildDone id) s) fun t => ∃ k', Tab.opt t.colls id = some k' ∧ k'.replica = true ∧
        k'.replicaPages = (k.body.pages.zip l).map fun e => (e.1.1, e.2))

/-- R242, R253, R254, R257: the patrol scrubber of a channel reads its codewords in ascending order. A codeword without errors is left as it is; an
uncorrectable one is poisoned, and every other codeword keeps its bytes and its tag byte; after the last one the scrubber begins again. -/
def Obligations.PatrolScrub : Prop :=
  ∀ (ch a : Nat) (s : State), ch < 384 →
    let cw := Tab.look s.mem.patrol 0 ch
    (s.dpaAt ch cw = some a → s.memUp (ch / 96) = true → s.mem.selfRefresh.getLsbD (ch / 96) = false → Tab.opt s.mem.upsets (a / 128) = none →
      Completes (exec (.patrolScrubRead ch []) s) fun t =>
        t.mem = { s.mem with patrol := Tab.put s.mem.patrol 0 ch (cw + 1) } ∧ t.cores = s.cores ∧
        ((s.mem.tag a).poison = false → t.ctxs = s.ctxs)) ∧
    (∀ err, s.dpaAt ch cw = some a → s.memUp (ch / 96) = true → s.mem.selfRefresh.getLsbD (ch / 96) = false →
      Tab.opt s.mem.upsets (a / 128) = none → (s.mem.tag a).poison = false → rsDecode (joinErrors [] (err.filter fun e => e.1 < 132)) = .uncorrectable →
      Completes (exec (.patrolScrubRead ch err) s) fun t =>
        (t.mem.tag a).poison = true ∧ (t.mem.tag a).slot = (s.mem.tag a).slot ∧ Tab.look t.mem.patrol 0 ch = cw + 1 ∧
        a / Config.page ∈ t.mem.retired ∧ ∀ b slot, b / 128 ≠ a / 128 → t.mem.readCw slot b = s.mem.readCw slot b) ∧
    (s.dpaAt ch cw = none → s.board.stage ≠ .off → Completes (exec (.patrolScrubRead ch []) s) fun t =>
      Tab.look t.mem.patrol 0 ch = 0 ∧ t.mem.data = s.mem.data ∧ t.mem.tags = s.mem.tags)

/-! ## Rings and doorbells -/

/-- R330, R331, R335, R347, R353, R354: a descriptor that is read enters the command table with the next number, and the ring's consumer index moves
on; a read that fails is tried again, and the second failure stops the ring; a completion record goes, 64 bytes of it, to the next completion slot,
and a write of one that fails stops the ring; an interrupt that is due is sent, or marked pending where its vector is masked. -/
def Obligations.RingRows : Prop :=
  ∀ (id : RingId) (q : Ring) (s : State), s.ring id = some q →
    (∀ b, s.canFetch id = true → q.retrying = false → Completes (exec (.descriptorFetch id (some b)) s) fun t =>
      ∃ q', t.ring id = some q' ∧ q'.cons = q.cons + 1 ∧ q'.fetched = q.fetched + 1 ∧ t.cmdNo = s.cmdNo + 1 ∧ q'.stopped = q.stopped) ∧
    (s.canFetch id = true → q.retrying = false → Completes (exec (.descriptorFetch id none) s) fun t =>
      t.ring id = some { q with retrying := true } ∧ t.cmds = s.cmds ∧ t = { s with rings := t.rings, out := [] }) ∧
    (∀ b, s.ringService = true → q.enabled = true → q.stopped = false → q.retrying = true →
      Completes (exec (.descriptorReadRetry id (some b)) s) fun t =>
        ∃ q', t.ring id = some q' ∧ q'.cons = q.cons + 1 ∧ q'.fetched = q.fetched + 1 ∧ q'.retrying = false ∧ t.cmdNo = s.cmdNo + 1) ∧
    (s.ringService = true → q.enabled = true → q.stopped = false → q.retrying = true →
      Completes (exec (.descriptorReadRetry id none) s) fun t =>
        t.ring id = some { q with stopped := true, retrying := false } ∧ t.cmds = s.cmds ∧ t.mem = s.mem) ∧
    (∀ c r, s.serving = true → s.hostWrites = true → q.stopped = false → q.room = true → q.ready = c :: r → q.enabled = true →
      (Completes (exec (.completionWrite id true) s) fun t =>
        (∃ q', t.ring id = some q' ∧ q'.ready = r ∧ q'.written = q.written + 1 ∧ q'.cons = q.cons) ∧
        Tab.span t.hostMem 0 (hostKey q.func (q.cqBase + 64 * (q.written % 2 ^ q.cqLog))) 64 =
          c.bytes (q.written / 2 ^ q.cqLog % 2 = 0) q.cons.toNat s.turn.count ∧ t.mem = s.mem) ∧
      (Completes (exec (.completionWrite id false) s) fun t =>
        t.ring id = some { q with stopped := true, retrying := false } ∧ t.hostMem = s.hostMem)) ∧
    (s.serving = true → q.unannounced ≠ 0 →
      (s.vectorOpen q.func q.vector = true → Completes (exec (.irqTimerExpiry id) s) fun t =>
        t.out = [s.msixMessage q.func q.vector] ∧ (∃ q', t.ring id = some q' ∧ q' = { q with unannounced := 0 }) ∧
        t = { s with rings := t.rings, out := t.out }) ∧
      (s.vectorOpen q.func q.vector = false → Completes (exec (.irqTimerExpiry id) s) fun t =>
        2048 * q.func + q.vector ∈ t.host.pendingMsix ∧ t.out = [] ∧ t.ring id = some q))

/-- R312 to R314, R329, R330, R354: a doorbell word whose reserved bits are zero and whose producer index is not more than the ring's size ahead is
taken, by an MMIO write, a snoop, or a poll: PROD and CQ_HEAD become its fields, and RESUME lets a stopped ring go on. Any other word changes the
indices of no ring. A read of a doorbell returns the word last taken, and a request that no BAR claims is unsupported. After the 64th snoop in a millisecond without a change, the line is held no more.
That a snoop with a viral indication drops the line is the model's reading (log entry 103). -/
def Obligations.DoorbellWords : Prop :=
  ∀ (id : RingId) (q : Ring) (v : Word) (s : State), s.ring id = some q → q.enabled = true →
    let fits := (v.toNat / 2 ^ 48 % 2 ^ 15 = 0 ∧ ahead32 (v.toNat % 2 ^ 32) q.cons.toNat ≤ 2 ^ q.sqLog)
    let took := fun (t : State) => ∃ q', t.ring id = some q' ∧ q'.word = v ∧ q'.prod = v.truncate 32 ∧ q'.cqHead = (v >>> 32).truncate 16 ∧
      q'.stopped = (q.stopped && !bitAt v 63) ∧ q'.cons = q.cons ∧ q'.fetched = q.fetched
    let left := fun (t : State) => ∃ q', t.ring id = some q' ∧ q'.word = q.word ∧ q'.prod = q.prod ∧ q'.cqHead = q.cqHead ∧
      q'.stopped = q.stopped
    (∀ a f off, s.ioOpen = true → off < 0x8000 → s.functionOn f = true → id = doorbellRing off → s.barAt a = some (.area f, off) →
      (s.doorbellTaken f off 8 = true → fits → Completes (exec (.mmioDoorbell true a 8 v) s) took) ∧
      (s.doorbellTaken f off 8 = true → ¬ fits → Completes (exec (.mmioDoorbell true a 8 v) s) left) ∧
      (∀ n, s.doorbellTaken f off n = false → Completes (exec (.mmioDoorbell true a n v) s) fun t =>
        t.rings = s.rings ∧ t.cmds = s.cmds ∧ t.mem = s.mem) ∧
      (∀ w, off % 8 = 0 → Completes (exec (.mmioDoorbell false a 8 w) s) fun t =>
        t = { s with out := [.value (s.doorbellRead f off)] } ∧
        (q.mmio = true → (s.ctx (off / 128)).st ≠ .closed → (s.ctx (off / 128)).req.func = f → s.doorbellRead f off = q.word))) ∧
    (∀ a n wr w, s.ioOpen = true → s.barAt a = none → Completes (exec (.mmioDoorbell wr a n w) s) fun t =>
      t.out.drop (t.out.length - 2) = [.unsupported, .aer 0 20] ∧ t.rings = s.rings ∧ t.mem = s.mem) ∧
    (s.ringService = true → bitAt v 63 = true → q.stopped = true → fits → Completes (exec (.ringResume id v) s) took) ∧
    (s.cacheMemOpen = true → s.host.viral = false → q.mmio = false → q.lineHeld = true → fits →
      Completes (exec (.doorbellSnoop id v) s) fun t => took t ∧
        ((q.noteSnoop s.now v).length = 64 → ∃ q', t.ring id = some q' ∧ q'.lineHeld = false ∧ q'.degraded = true)) ∧
    (s.cacheMemOpen = true → s.host.viral = true → q.mmio = false → q.lineHeld = true → Completes (exec (.doorbellSnoop id v) s) fun t =>
      t.ring id = some { q with lineHeld := false } ∧ t.out = [.snoopResponse true]) ∧
    (s.cacheMemOpen = true → s.host.viral = false → q.mmio = false → q.degraded = true → fits →
      Completes (exec (.doorbellPoll id v) s) took)

/-! ## The host link -/

/-- R308, R309, R310, R315, R316, R552: training sets the service by width and rate, and a link that cannot train in 256-byte flit mode fails
(after a link down, full service is the other row's, HOST_LINK_RETRAIN; log entry 133);
configuration requests to a function that does not exist are answered Unsupported Request, reported at F0 (log entry 139), and the registers that the model acts on (log entry 31)
read what they control; an invalidation leaves no cached translation of its range; a snoop of a line that no ring holds is answered as a miss. -/
def Obligations.HostLinkService : Prop :=
  ∀ s : State,
    (s.mgmtUp = true → s.board.stage ≠ .tripped → s.board.resetAsserted = false → s.linkUp = false → 1 ∉ s.board.faulted →
      (∀ w r, s.board.linkDownCount = false ∨ ¬ (4 ≤ w ∧ 32 ≤ r) → Completes (exec (.hostLinkTrained true w r) s) fun t =>
        t.host.link = (if 4 ≤ w ∧ 32 ≤ r then .full else .ioOnly) ∧ t.host.width = w ∧ t.host.rate = r ∧ t.rings = s.rings ∧ t.mem = s.mem) ∧
      (∀ w r, Completes (exec (.hostLinkTrained false w r) s) fun t => t.host.link = .failed ∧ t.rings = s.rings ∧ t.mem = s.mem)) ∧
    (s.linkUp = true → s.host.config = true →
      (∀ f off w, s.functionOn f = false → Completes (exec (.configRequest f off w) s) fun t =>
        t.out.drop (t.out.length - 2) = [.unsupported, .aer 0 20] ∧
        t.host = { s.host with aerUnc := addNew 20 s.host.aerUnc, aerCor := addNew 13 s.host.aerCor }) ∧
      (Completes (exec (.configRequest 0 0x008 none) s) fun t => t = { s with out := [.value 0x12000000] }) ∧
      (Completes (exec (.configRequest 0 0x1003 none) s) fun t => t = { s with out := [.value (BitVec.ofNat 64 s.params.cxlMem)] }) ∧
      (Completes (exec (.configRequest 0 0x1005 none) s) fun t => t = { s with out := [.value 1] }) ∧
      (Completes (exec (.configRequest 0 0x1006 none) s) fun t => t = { s with out := [.value 1] }) ∧
      (Completes (exec (.configRequest 0 0x1007 none) s) fun t => t = { s with out := [.value 63] }) ∧
      (∀ v, Completes (exec (.configRequest 0 0x1002 (some v)) s) fun t =>
        t = { s with host := { s.host with vfs := min v.toNat 63 }, out := [.data [] false] }) ∧
      (∀ f v, s.functionOn f = true → bitAt v 0 = false → Completes (exec (.configRequest f 0x1001 (some v)) s) fun t =>
        f ∉ t.host.ats ∧ ∀ e ∈ t.host.atc, e.1 ≠ f)) ∧
    (∀ f a, s.cacheMemOpen = true → (s.rings.any fun e => !e.2.mmio && e.2.lineHeld && e.2.func == f && e.2.dbAddr / 64 == a / 64) = false →
      Completes (exec (.snoopInvalid f a) s) fun t => t = { s with out := [.snoopResponse false] }) ∧
    (∀ f a n, s.ioOpen = true → s.host.ats.contains f = true → Completes (exec (.atsInvalidation f a n) s) fun t =>
      (∀ e ∈ t.host.atc, e.1 = f → (e.2 + 1) * 4096 ≤ a ∨ a + n ≤ e.2 * 4096) ∧ t.out = [.atsDone f] ∧
      t = { s with host := { s.host with atc := t.host.atc }, out := t.out })

/-- R319 to R322, R245, R325: a host read through a mapped frame returns the bytes of its codeword as slot 0 sees them; outside the window, in keeper
mode, or through an unmapped frame it returns ones with poison, and a codeword of another slot reads so too. A host write through a frame that is
not read-only stores its bytes, in slot 0; any other write, and any after a viral indication, changes no memory. The memory system keeps its
canonical form. An error pattern that waits in the codeword is dealt with first, as at every read (R242). -/
def Obligations.HostWindow : Prop :=
  ∀ (h : Nat) (s : State), s.cacheMemOpen = true →
    (∀ n, inLine h n = true →
      (∀ f a, s.windowAt h = (f, .inr a) → Tab.opt s.mem.upsets (a / 128) = none →
        ((s.mem.tag a).slot = 0 → (s.mem.tag a).poison = false → Completes (exec (.cxlMemRead h n []) s) fun t =>
          t.out.getLast? = some (.data (((s.mem.readCw 0 a).1.drop (a % 128)).take n) false) ∧ t.mem = s.mem ∧ a / 64 ∈ t.host.snoop) ∧
        ((s.mem.tag a).slot ≠ 0 → Completes (exec (.cxlMemRead h n []) s) fun t =>
          t.out.getLast? = some (.data (((List.replicate 128 0xFF).drop (a % 128)).take n) true) ∧ t.mem = s.mem)) ∧
      (∀ f k, s.windowAt h = (f, .inl k) → Completes (exec (.cxlMemRead h n []) s) fun t =>
        t.out.getLast? = some (.data (List.replicate n 0xFF) true) ∧ t.mem = s.mem)) ∧
    (∀ d, inLine h d.length = true →
      (∀ f a, s.host.viral = false → s.windowAt h = (f, .inr a) → s.frameReadOnly f = false →
        Completes (exec (.cxlMemWrite h d) s) fun t =>
          t.mem = (((s.start.bumpChannel (s.channelOf a) 7 1).settleCw 9 a).mem.writeCw 0 a d false).1 ∧ (s.mem.wf = true → t.mem.wf = true) ∧ t.cores = s.cores ∧
          (Tab.opt s.mem.upsets (a / 128) = none → (s.mem.tag a).slot = 0 → t.mem = (s.mem.writeCw 0 a d false).1 ∧ t.ctxs = s.ctxs) ∧
          (Tab.opt s.mem.upsets (a / 128) = none → (s.mem.tag a).slot ≠ 0 → t.mem = s.mem)) ∧
      (s.host.viral = true ∨ (∃ f k, s.windowAt h = (f, .inl k)) ∨ (∃ f a, s.windowAt h = (f, .inr a) ∧ s.frameReadOnly f = true) →
        Completes (exec (.cxlMemWrite h d) s) fun t => t.mem = s.mem))

/-- R323, R325, R353, R354, R522: what a partner that misbehaves brings about. A descriptor read that fails is tried again, a completion write that
fails stops its ring; malformed traffic is reported through AER, or retrains the link; a viral indication stops ring service until a warm reset; a
failure of link encryption closes the link, and completion writes wait, until keys are established again; an unmasked vector sends what was pending.
That errors of the link are reported at F0, and a line whose read failed stays poisoned, are the model's readings (log entries 134 and 139). -/
def Obligations.HostFailures : Prop :=
  ∀ s : State,
    (∀ id q, s.serving = true → s.linkUp = true → s.ring id = some q → s.canFetch id = true → q.retrying = false →
      Completes (exec (.cxlIoReadTimeout (.descriptor id)) s) fun t => t.ring id = some { q with retrying := true } ∧ t.cmds = s.cmds) ∧
    (∀ id q, s.serving = true → s.cacheMemOpen = true → s.ring id = some q → s.canFetch id = true → q.retrying = false →
      Completes (exec (.cxlCacheTimeout (.descriptor id)) s) fun t => t.ring id = some { q with retrying := true } ∧ t.cmds = s.cmds) ∧
    (∀ id q, s.serving = true → s.cacheMemOpen = true → s.ring id = some q → q.ready ≠ [] → q.stopped = false → q.room = true →
      Completes (exec (.cxlCacheErrorResponse (.completion id)) s) fun t =>
        t.ring id = some { q with stopped := true, retrying := false } ∧ t.hostMem = s.hostMem) ∧
    (∀ f a, s.serving = true → s.cacheMemOpen = true → Completes (exec (.cxlCacheTimeout (.line f a false)) s) fun t =>
      Tab.look t.mem.tags {} ((tierBase + hostKey f a) / 128) = { poison := true } ∧ t.rings = s.rings ∧ t.hostMem = s.hostMem) ∧
    (s.ioOpen = true → (Completes (exec .malformedTlp s) fun t => t.out.getLast? = some (.aer 0 18) ∧ t.rings = s.rings ∧ t.mem = s.mem) ∧
      (Completes (exec .unexpectedCompletion s) fun t => t.out.getLast? = some (.aer 0 16) ∧ t.rings = s.rings ∧ t.mem = s.mem) ∧
      (Completes (exec .hostViral s) fun t => t.host = { s.host with viral := true } ∧ t.ringService = false ∧ t.mem = s.mem)) ∧
    (s.cacheMemOpen = true → Completes (exec .malformedCxlMessage s) fun t => t.out.getLast? = some .retrainHost ∧ t.host = s.host) ∧
    (s.linkUp = true → s.host.ide = .secure → Completes (exec .hostIdeFail s) fun t =>
      t.host = { s.host with ide := .insecure, holdCpl := true } ∧ t.ioOpen = false ∧ t.cacheMemOpen = false ∧ t.hostWrites = false ∧
      t.sec.ideKeys = []) ∧
    (∀ n k, s.linkUp = true → s.host.session = true → n < 2 → Completes (exec (.ideKm n k) s) fun t =>
      Tab.opt t.sec.ideKeys n = some k ∧
      ((Tab.opt s.sec.ideKeys (1 - n)).isSome = true → t.host.ide = .secure ∧ (s.board.linkDownCount = false → t.host.holdCpl = false)) ∧
      (Tab.opt s.sec.ideKeys (1 - n) = none → t.host = s.host)) ∧
    (∀ f v, s.ioOpen = true → s.functionOn f = true → v < vectors f →
      let go : Bool := s.host.pendingMsix.contains (2048 * f + v) && s.host.msixOn.contains f && !s.host.msixMask.contains f
      Completes (exec (.msixUnmask f v) s) fun t =>
        2048 * f + v ∈ t.host.unmasked ∧
        (go = true → t.out = [s.msixMessage f v] ∧ 2048 * f + v ∉ t.host.pendingMsix) ∧
        (go = false → t = { s with host := { s.host with unmasked := addNew (2048 * f + v) s.host.unmasked }, out := [] }))

/-! ## The commands of the rings -/

/-- R336 to R338: a waiting command one of whose dependencies has failed completes as CANCELLED (status 0x0C); one whose conditions hold is released,
its release turn and LATE fixed, and its work begins; one whose conditions do not hold stays as it is. The row of the command's opcode and
COMMAND_RELEASE do the same. The order of the checks at release and the parts poisoned are readings (log entries 73 and 76). -/
def Obligations.ReleaseRows : Prop :=
  ∀ (s : State) (m : Cmd) (hdrs : List (Option Bytes)) (i : Instr), s.Waits m →
    releaseInstr m.op m.handle hdrs = some i ∨ (i = .commandRelease m.handle hdrs ∧ ownStep m.op = false) →
    (s.Releases m → Completes (exec i s) fun t =>
      t = ((s.start.modCmd m.handle fun _ => s.released m).work (s.released m) hdrs).settle s) ∧
    (s.depsFailed m = true → m.op ≠ 0x02 → m.work = .none → (s.ctx m.target).kernel m.handle = none → Completes (exec i s) fun t =>
      s.Done t m 0x0C ∧ t.mem = s.mem ∧ t.ctxs = s.ctxs) ∧
    (s.depsFailed m = false → s.condsMet m = false → Completes (exec i s) fun t => t = { s with out := [] })

/-- R293, R295, R296: OPEN_SEQ gives the next number to a sequence of the current generation; CLOSE_SEQ removes its sequence; MIGRATE_SEQ with CLEAR
leaves the sequence empty under the new generation; a sequence that a running STEP uses makes the latter two wait, and they end once it is over. -/
def Obligations.SequenceCommands : Prop :=
  ∀ (s : State) (m : Cmd), (s.cmd m.handle = some m) →
    let x := m.target
    let sid := leAt m.body 0 4
    let closed := fun (t : State) => Tab.opt (t.ctx x).seqs sid = none ∧ s.Done t m 0 ∧ t.mem = s.mem
    let moved := fun (t : State) => (∃ q, Tab.opt (t.ctx x).seqs sid = some q ∧ q.gen = leAt m.body 4 2 ∧ q.len = 0 ∧ q.cat = []) ∧
      s.Done t m 0 ∧ t.mem = s.mem
    let held := fun (t : State) => t.cmd m.handle = some (s.released m) ∧ (t.ctx x).seqs = (s.ctx x).seqs
    (m.op = 0x20 → s.Releases m → ∀ g, (s.ctx x).current = some g → Completes (exec (.openSeq m.handle) s) fun t =>
      s.Done t m 0 ∧ (t.ctx x).nextSid = (s.ctx x).nextSid + 1 ∧
      ∃ q, Tab.opt (t.ctx x).seqs (s.ctx x).nextSid = some q ∧ q.gen = g ∧ q.cat = [] ∧
        q.key = BitVec.ofNat 128 (leAt m.body 0 16)) ∧
    (m.op = 0x20 → s.Releases m → (s.ctx x).current = none → Completes (exec (.openSeq m.handle) s) fun t => s.Done t m 0x02) ∧
    (m.op = 0x21 → s.Releases m → (Tab.opt (s.ctx x).seqs sid).isSome →
      (s.seqBusy x sid = false → Completes (exec (.closeSeq m.handle) s) closed) ∧
      (s.seqBusy x sid = true → Completes (exec (.closeSeq m.handle) s) held)) ∧
    (m.op = 0x21 → s.serving = true → m.st = .released → m.whole = none → m.failed = [] → (Tab.opt (s.ctx x).seqs sid).isSome →
      s.seqBusy x sid = false → Completes (exec (.closeSeq m.handle) s) closed) ∧
    (m.op = 0x22 → (Tab.opt (s.ctx x).seqs sid).isSome → s.genReady x (leAt m.body 4 2) = true → leAt m.body 6 1 = 1 →
      (s.Releases m → s.seqBusy x sid = false → Completes (exec (.migrateSeq m.handle) s) moved) ∧
      (s.Releases m → s.seqBusy x sid = true → Completes (exec (.migrateSeq m.handle) s) held) ∧
      (s.serving = true → m.st = .released → m.whole = none → m.failed = [] → s.seqBusy x sid = false →
        Completes (exec (.seqMigrateApply m.handle) s) moved))

/-- R258, R342, R345, R404: FENCE completes; OPEN_WINDOW opens the window with the ranges and writers it names; CLOSE_WINDOW stops acceptance
and ends once no accepted operation is left; SCRUB leaves every byte of its pages zero and in no key slot; CLOSE_CONTEXT, once every command of the
context has completed, takes its rings out of service and lets its scrub run. -/
def Obligations.WindowScrubClose : Prop :=
  ∀ (s : State) (m : Cmd), (s.cmd m.handle = some m) →
    let x := m.target
    let b := m.body
    let n := leAt b 0 1
    (m.op = 0x60 → s.Releases m → Completes (exec (.fenceCmd m.handle) s) fun t => s.Done t m 0 ∧ t.mem = s.mem ∧ t.ctxs = s.ctxs) ∧
    (m.op = 0x50 → s.Releases m → Tab.opt (s.ctx x).windows n = none → s.collAt x n = none →
      windowRangeOk (s.ctx x).req.cores (s.ctx x).req.shelves b = true →
      (∀ e l, (s.start.modCmd m.handle fun _ => s.released m).vread x (some m.handle) {} (leAt b 0x18 8) (4 * leAt b 0x20 2) = some (e, l, false) →
        ((List.range (leAt b 0x20 2)).any fun i => leAt l (4 * i) 1 != 0) = false → Completes (exec (.openWindow m.handle) s) fun t =>
          s.Done t m 0 ∧ Tab.opt (t.ctx x).windows n = some { kind := leAt b 1 1, ops := leAt b 2 1, core := leAt b 3 1, base := leAt b 8 8,
                                                                bytes := leAt b 0x10 8, writers := memberList l })) ∧
    (m.op = 0x51 → ∀ w, Tab.opt (s.ctx x).windows n = some w →
      (s.Releases m → w.closing = none → s.windowBusy x n = false → Completes (exec (.closeWindow m.handle) s) fun t =>
        s.Done t m 0 ∧ Tab.opt (t.ctx x).windows n = none) ∧
      (s.Releases m → w.closing = none → s.windowBusy x n = true → Completes (exec (.closeWindow m.handle) s) fun t =>
        t.cmd m.handle = some (s.released m) ∧ Tab.opt (t.ctx x).windows n = some { w with closing := some m.handle }) ∧
      (s.serving = true → m.st = .released → m.whole = none → m.failed = [] → s.windowBusy x n = false →
        Completes (exec (.closeWindow m.handle) s) fun t => s.Done t m 0 ∧ Tab.opt (t.ctx x).windows n = none)) ∧
    (m.op = 0x72 → s.Releases m → (∀ i, i < leAt b 0x10 8 / Config.page → (s.translate x .write false (leAt b 8 8 + i * Config.page)).isSome) →
      Completes (exec (.scrub m.handle) s) fun t => s.Done t m 0 ∧
        ∀ i a k, i < leAt b 0x10 8 / Config.page → s.translate x .write false (leAt b 8 8 + i * Config.page) = some (a, k) →
          ∀ j, j < Config.page → Tab.look t.mem.data 0 (a / Config.page * Config.page + j) = 0 ∧
            t.mem.tag (a / Config.page * Config.page + j) = {}) ∧
    (m.op = 0x02 → x < 256 → s.Releases m → (s.ctx x).closeCmd = some m.handle → n % 2 = 0 → s.cmdsOf x = [] → (s.ctx x).st ≠ .scrubbing →
      Completes (exec (.closeContext m.handle) s) fun t =>
        (t.ctx x).st = .scrubbing ∧ (∀ r, r < 16 → t.ring (.ctx x r) = none) ∧ (t.ctx x).kernels = [] ∧ (t.ctx x).windows = [] ∧
        t.cmd m.handle = some (s.released m))

/-- R237, R275, R296, R340: what ends or moves on the work of a command. A kernel command whose kernels are over leaves the context, with the end of
its kernels on the cores first; a table slot is written and its LOAD_TABLE completes; an unloaded generation that no stream reads any more leaves its
context, and its UNLOAD_GEN completes; a waiting command whose deadline has passed completes as TIMED_OUT. -/
def Obligations.CommandWorkEnds : Prop :=
  ∀ (s : State) (m : Cmd), (s.cmd m.handle = some m) → s.serving = true →
    let x := m.target
    (∀ r l, (s.ctx x).kernels = r :: l → r.handle = m.handle → m.op = 0x30 ∨ m.op = 0x31 → s.kernelOver x r = true →
      let u := if r.stopped then s.start.stopKernels x else s.start.endCores x
      let k := ((u.ctx x).kernel m.handle).getD r
      Completes (exec (.kernelCommandEnd m.handle) s) fun t =>
        t = (((u.modCmd m.handle fun c => { c with exit := (k.ended.map fun e => e.2).foldl max 0 }).finishKernel x k false).settleCtx x).settle s ∧
        t.turn = s.turn) ∧
    (∀ n c, m.work = .table n c → m.st = .released → s.slotQueued x n = false → m.whole = none → m.failed = [] →
      Completes (exec (.tableSlotWrite m.handle) s) fun t => Tab.opt (t.ctx x).slots n = some c ∧ s.Done t m 0 ∧ t.mem = s.mem) ∧
    (m.op = 0x11 → m.st = .released → m.whole = none → m.failed = [] → s.streamBusy x (leAt m.body 0 2) = false →
      Completes (exec (.genPagesFreed m.handle) s) fun t => Tab.opt (t.ctx x).gens (leAt m.body 0 2) = none ∧ s.Done t m 0) ∧
    (s.Waits m → m.op ≠ 0x02 → m.work = .none → (s.ctx x).kernel m.handle = none → ownStep m.op = true ∨ m.due = false →
      s.deadlinePassed m = true → Completes (exec (.deadlineExpiry m.handle) s) fun t => s.Done t m 0x04 ∧ t.ctxs = s.ctxs ∧ t.mem = s.mem)

/-- R345, R363, R374, R379, R481, R523, R584: what moves a context on. It is placed between boundaries where no shelf needs to move; the copies and the
returns of a spilled sequence end, and kernels that waited for them may start; a context reset leaves no kernel, and names the commands whose records
are to be written first; the end of its scrub frees its pages and its number, and completes the CLOSE_CONTEXT that waits for it. -/
def Obligations.ContextWork : Prop :=
  ∀ (s : State) (x : Nat),
    (∀ l, s.serving = true → s.chooseCores x (s.placeable x) true = some l → s.turn.st.counts = true →
      (s.ctx x).st = .waiting → (l.zipIdx.all fun e => s.fits x e.2 e.1) = true → Completes (exec (.placementBetweenBoundaries x) s) fun t =>
        t = (s.start.placeCtx x l).settle s ∧ t.turn = s.turn) ∧
    (∀ sid, (s.ctx x).spillBusy sid = true → (s.ctx x).inStep sid = false → Completes (exec (.spillCopyDone x sid) s) fun t =>
      t = ((((((Tab.opt (s.ctx x).seqs sid).map fun q => q.resident).getD []).foldl (fun u e => u.spillFolio x sid e.1 e.2) s.start).spillOver
        x sid).settle s)) ∧
    (∀ sid fs, (s.ctx x).spillBusy sid = true → (s.ctx x).inStep sid = true → (s.ctx x).copiesDue sid = false →
      Completes (exec (.spillReturnDone x sid fs) s) fun t =>
        t = ((((((Tab.opt (s.ctx x).seqs sid).map fun q => q.spilledOnes.map fun e => e.1).getD []).foldl (fun u k =>
          u.returnFolio x sid k ((fs.find? fun e => e.1 == k).bind fun e => e.2)) s.start).spillOver x sid).settle s)) ∧
    (∀ v, s.ioOpen = true → s.serving = true → v.toNat % 256 = x → s.mayReset x = true → Completes (exec (.ctxReset v) s) fun t =>
      (t.ctx x).kernels = [] ∧ (t.ctx x).resetting = (if s.cmdsOf x = [] then none else some ((s.cmdsOf x).map fun c => c.handle))) ∧
    (s.serving = true → (s.ctx x).st = .scrubbing → Completes (exec (.scrubDone x) s) fun t =>
      (t.ctx x).st = .closed ∧ t.ownPages x = [] ∧
      ∀ m, s.cmd m.handle = some m → m.whole = none → m.failed = [] → (s.ctx x).closeCmd = some m.handle → (s.ctx x).orphan = false →
        (s.ctx x).scrubKind = 0 → s.Done t m 0)

/-- R291, R292, R339: SET_GEN, WAIT_TURN and SEAL_LEDGER have order steps of their own. Once their conditions hold the model marks them (log entry 24),
and a boundary makes them act: order step 6 puts the generation of a SET_GEN into use and completes it; order step 8 completes a WAIT_TURN whose turn
has come, and leaves one whose turn has not. -/
def Obligations.OrderStepCommands : Prop :=
  ∀ (s : State) (m : Cmd), s.Waits m → s.depsFailed m = false → s.condsMet m = true →
    let x := m.target
    (∀ i, (m.op = 0x12 ∧ i = .setGen m.handle) ∨ (m.op = 0x61 ∧ i = .waitTurn m.handle) ∨ (m.op = 0x71 ∧ i = .sealLedger m.handle) →
      Completes (exec i s) fun t => t.cmd m.handle = some { m with due := true } ∧ t = { s with cmds := t.cmds, out := [] }) ∧
    (s.cmds = [m] → m.op = 0x61 → (m.flags.testBit 1 = true → m.turn ≤ s.turn.count) → leAt m.body 0 8 ≤ s.turn.count.toNat →
      s.Done s.waitTurns m 0) ∧
    (s.cmds = [m] → m.op = 0x61 → (m.flags.testBit 1 = true → m.turn ≤ s.turn.count) → s.turn.count.toNat < leAt m.body 0 8 →
      s.deadlineNow m = false → s.waitTurns = s) ∧
    (s.cmds = [m] → m.op = 0x12 → (m.flags.testBit 1 = true → m.turn ≤ s.turn.count) → s.genReady x (leAt m.body 0 2) = true →
      s.roomFor m = true → s.Done s.setGens m 0 ∧ (s.setGens.ctx x).current = some (leAt m.body 0 2) ∧ s.setGens.mem = s.mem)

/-! ## Collectives -/

/-- R418, R419, R424 to R427, R432, R433, R437: the steps of a collective. Once its count table is full, a table whose entries agree and whose matrix
keeps R418 makes it send its data, and any other fails it with BAD_ARGUMENT and sends nothing; a chunk whose contributions are in is reduced into DST,
and under ALL_REDUCE goes to every other member; with all parts and PUTs at their end the command completes and its number becomes a tombstone; a stall
is reported at each multiple of STALL_TURNS, and LIMIT_TURNS ends it; a PUT that may be repeated is sent again with its TAG. -/
def Obligations.CollectiveSteps : Prop :=
  ∀ (h : Word) (s : State) (m : Cmd) (c : CollRun), s.cmd h = some m → m.work = .coll c → s.serving = true →
    let x := m.target
    let e := typeBytes c.dtype
    let n := e * c.chunk.2.1
    let off := if c.op = 0x11 then e * c.orig c.rank else 0
    let ent := (List.range c.p).map fun i => sliceAt (Tab.span c.table 0 0 (c.p * c.entryLen)) (i * c.entryLen) c.entryLen
    let c' := { c with checked := true, counts := ent.map fun b => (List.range c.p).map fun j => leAt b (16 + 8 * j) 8 }
    let agree := (ent.zipIdx).all fun b => leAt b.1 0 4 == c.check && leAt b.1 4 2 == b.2
    (m.whole = none → s.collTableFull x c = true →
      (agree = true → c'.matrixOk = true → c'.longEnough = true → Completes (exec (.collCountCheck h) s) fun t =>
        t = ((s.start.modColl h fun _ => c').collData x h c').settle s) ∧
      (agree = false ∨ c'.matrixOk = false → Completes (exec (.collCountCheck h) s) fun t =>
        t.cmd h = some { m with work := .coll c', whole := some 0x02, detail := 0x05 } ∧ t = { s with cmds := t.cmds, out := [] })) ∧
    (∀ u v own work, m.whole = none → c.checked = true → isReduction c.op = true → c.reduced = false → c.chunk.2.1 ≠ 0 →
      ((List.range c.p).all fun i => c.workFrom i ≤ c.got 2 i) = true → s.bufReady x c.src = true → s.bufReady x c.dst = true →
      s.bufReady x c.work = true → s.start.bufRead x h c.src (e * c.chunk.1) n = some (u, own, false) →
      u.bufRead x h c.work 0 (n * c.p) = some (v, work, false) → v.bufFits x c.dst off n = true →
      let r := c.reduceBytes own work
      let z := ((v.bufWrite x (some h) c.dst off r.1 false).modCmd h fun m => { m with acc := m.acc ||| r.2 }).modColl h fun c => { c with reduced := true }
      let secret := if c.dst.kind = 1 then (z.ctx x).req.modes.testBit 1 else z.secretAt x (c.dst.addr + off) n
      Completes (exec (.collChunkReduce h) s) fun t =>
        t = (if c.op = 0x11 then (List.range c.p).foldl (fun y j => if j = c.rank then y else
          y.collSend x h c j 1 (e * c.orig c.rank) r.1 true secret false) z else z).settle s) ∧
    (m.handle = h → c.released = true → (List.range m.nparts).all (c.partOver m) = true → c.puts.all CollPut.isOver = true →
      m.failures = [] ∨ s.bufReady x c.dst = true →
      Completes (exec (.collComplete h) s) fun t => t = (s.start.collEnd h m c).settle s ∧ t.cmd h = none ∧
        (c.winOpen = true → (s.collsOf x).all (fun g => g.1 == h || g.2.winOpen || g.2.win != c.win) = true →
          Tab.opt (t.ctx x).tombs c.win = some (c.group, c.cseq, c.short))) ∧
    (c.released = true → c.stall ≠ 0 → c.reported ≠ c.stall → c.stall % s.stallTurnsOf c = 0 →
      let d := c.stallDetail
      Completes (exec (.collStall h) s) fun t =>
        t = ((((s.start.modColl h fun c => { c with reported := c.stall }).raise { code := 0x0901, ctx := some x, handle := some h, unit := 5, detail := [leAt d 0 8, leAt d 8 8] }).fmReport 4
          (c.members.getD (c.awaited.1.headD 0) (0, 0)).1 x d).bumpFw x 19 1).settle s) ∧
    (m.handle = h → c.released = true → c.limitTurns ≠ 0 → c.limitTurns ≤ c.stall → Completes (exec (.collLimit h) s) fun t =>
      t = (s.start.collAbort h 0x04).settle s ∧ t.cmd h = none) ∧
    (∀ tag u, (c.puts.find? fun u => u.tag == tag && u.again) = some u → Completes (exec (.collPutRepeat h tag) s) fun t =>
      t = (((s.start.modColl h fun c => { c with puts := modWhere (fun v => v.tag == tag) (fun v =>
        { v with status := none, repeats := v.repeats + 1 }) c.puts }).bumpFw x 18 1).sendCollPut x h c { u with status := none }).settle s)

/-! ## Remote operations -/

/-- R150, R152, R228, R397, R399, R403 to R408, R411: a message that is taken at its turn does its work. A PUT whose checks pass writes its bytes behind
the window, updates the slots, and is answered with DONE, or POISONED where it is poisoned; a check that fails is answered with its status; a GET is
answered with its data, an ATOMIC with the old value, its new value standing as R228 computes it; RETRY makes an operation of a core wait to be
resent, and any other answer, or a time-out, ends it; an answer with an unknown tag over the hub changes nothing but its own queue; a node that is
declared down is listed, and one that is up again is not. -/
def Obligations.RemoteOperations : Prop :=
  ∀ (v : Via) (m : Msg) (s : State),
    let h := m.hdr
    let x := h.dstCtx
    let u := s.start.take v m
    (∀ w, s.Taken v m → h.mtype = 1 → h.part = 0 → h.npart = 1 → s.collWin x h.window = .none → s.windowCheck v h = none →
      s.window x h.window = some w → Completes (exec (.put v m) s) fun t =>
        t = (((((u.dropIn h).windowWrite x w h.roff (msgFull m) h.poison).dropIn h).windowUpdate h w true).answer v
          (respTo h (if h.poison then 0x06 else 0) [])).settle s) ∧
    (∀ k st, s.Taken v m → h.mtype = 1 → h.part = 0 → s.collWin x h.window = .none → s.windowCheck v h = some (k, st) →
      Completes (exec (.put v m) s) fun t => t = ((u.dropIn h).turnAway v m k st).settle s ∧
        (v = .hub → t.out.getLast? = some (.hub (respTo h st [])))) ∧
    (∀ w, s.Taken v m → h.mtype = 2 → s.collWin x h.window = .none → s.windowCheck v h = none → s.window x h.window = some w →
      Completes (exec (.get v m) s) fun t => t = (u.getAnswer v m w).settle s) ∧
    (∀ w r d new, s.Taken v m → h.mtype = 3 → s.collWin x h.window = .none → s.windowCheck v h = none → s.window x h.window = some w →
      u.windowRead x w h.roff 8 = (r, d, false) →
      let old : Word := BitVec.ofNat 64 (ofLe d)
      let a : Word := BitVec.ofNat 64 (leAt m.data 0 8)
      let b : Word := BitVec.ofNat 64 (leAt m.data 8 8)
      (h.op = 0x10 ∧ new = old + a) ∨ (h.op = 0x11 ∧ new = a) ∨ (h.op = 0x12 ∧ new = (if old = b then a else old)) ∨
        (h.op = 0x13 ∧ new = old ||| a) ∨ (h.op = 0x14 ∧ new = old &&& a) ∨ (h.op = 0x15 ∧ new = (if old.toInt < a.toInt then a else old)) ∨
        (h.op = 0x16 ∧ new = (if a.toInt < old.toInt then a else old)) →
      Completes (exec (.atomic v m) s) fun t =>
        t = (((r.windowWrite x w h.roff (toLe 8 new.toNat) false).windowUpdate h w true).answer v (respTo h 0 (toLe 8 old.toNat))).settle s ∧
        (v = .hub → t.out.getLast? = some (.hub (respTo h 0 (toLe 8 old.toNat))))) ∧
    (∀ o, s.Taken v m → h.mtype = 5 → s.outOp v h = some o →
      (h.status = 0x0C → o.coll = none → Completes (exec (.resp v m) s) fun t => t = (u.waitResend o).settle s) ∧
      (h.status ≠ 0x0C → Completes (exec (.resp v m) s) fun t =>
        t = (u.endOp o h.status (ofLe (m.data.take 8))).settle s ∧ ∀ q ∈ t.fabric.outOps, q.tag ≠ o.tag)) ∧
    (∀ o, s.Taken v m → h.mtype = 4 → s.outOp v h = some o → o.coll = none → o.op = 1 → Completes (exec (.getData v m) s) fun t =>
      t = (u.takeGetData o m).settle s) ∧
    (s.Taken v m → v = .hub → s.outOp v h = none → ∀ i, (h.mtype = 4 ∧ i = .getData v m) ∨ (h.mtype = 5 ∧ i = .resp v m) →
      Completes (exec i s) fun t => t = { s with fabric := { s.fabric with hubQ := s.fabric.hubQ.erase m }, out := [] }) ∧
    (∀ tag y k o p, s.serving = true → s.resender tag = some (y, k, o) →
      let g := s.start.modRemote y k tag fun r => { r with waiting := false }
      (Completes (exec (.remoteRetryResend tag true) s) fun t => t = (g.finishRemote y k tag 0x07 0).settle s) ∧
      ((rblkOf o.block).node ∉ s.fabric.down → s.isSelf (rblkOf o.block).node = false → s.routeFor (some y) (rblkOf o.block).node = some p →
        (g.launchOp y k (g.eng y k).handle o (some p)).2 = none → Completes (exec (.remoteRetryResend tag false) s) fun t =>
          ∃ q ∈ t.fabric.outOps, q.tag = tag ∧ q.ctx = y ∧ q.lcore = k ∧ q.port = some p)) ∧
    (∀ tag o, s.serving = true → (s.fabric.outOps.find? fun o => o.tag == tag && o.port.isSome) = some o →
      Completes (exec (.remoteTimeout tag) s) fun t =>
        t = (s.start.endOp o 0x09 0).settle s ∧ ∀ q ∈ t.fabric.outOps, q.tag ≠ tag) ∧
    (∀ node ctx tag o, s.serving = true → (s.fabric.inOps.find? fun o => o.srcNode == node && o.srcCtx == ctx && o.tag == tag) = some o →
      Completes (exec (.remoteAbandoned node ctx tag) s) fun t => t = (s.start.abandonOp o).settle s) ∧
    (∀ src node, s.serving = true → s.fabric.down.length < 1024 ∨ node ∈ s.fabric.down → Completes (exec (.peerDown none src node) s) fun t =>
      t = (s.start.peerDown node).settle s ∧ node ∈ t.fabric.down) ∧
    (∀ src node, s.serving = true → Completes (exec (.peerUp none src node) s) fun t =>
      node ∉ t.fabric.down ∧ t = { s with fabric := { s.fabric with down := t.fabric.down }, out := [] })

/-! ## Optical ports -/

/-- R383 to R387, R395, R399, R484, R504, R520, R521, R574: how a link comes up and ends. Each of these commands moves its port as the rules say: light,
training, HELLO, and the three steps of authentication lead a port that keeps them to UP; what fails sends it DARK, held for 10 s where the rules say
so. A recovering port resumes with the partner that it had. -/
def Obligations.PortStates : Prop :=
  ∀ (p : Nat) (s : State),
    let o := s.port p
    let only := fun (t : State) => t = { s with fabric := t.fabric, out := t.out }
    (s.portLive p = true →
      (o.st = .dark → o.darkHeld = false → Completes (exec (.lightDetected p) s) fun t => t.port p = { o with st := .training } ∧ t.out = [] ∧ only t) ∧
      (o.st ≠ .dark → Completes (exec (.lightLost p) s) fun t => (t.port p).st = .dark ∧ (t.port p).retry = [] ∧ (t.port p).authed = false) ∧
      (∀ lanes rt ta, o.st = .training ∨ o.st = .recovering → lanes = 1 ∨ lanes = 2 ∨ lanes = 4 →
        Completes (exec (.trainingDone p lanes rt ta) s) fun t =>
          t.port p = { o with st := if o.st = .training then .negotiating else .recovering, lanes := lanes, delay := portDelay rt ta } ∧
          t.out.getLast? = some (.hello p)) ∧
      (∀ (h : Hello) n v, o.st = .negotiating → s.net.node = some n → linkVersion h.lo h.hi = some v → h.node ≠ n → h.node ≠ 0xFFFF →
        Completes (exec (.hello p h) s) fun t =>
          t.port p = { o with st := .authenticating, version := v, partner := h.node, partnerDev := h.device, credits := h.credits,
                              credMax := h.credits, authStep := 0 } ∧ t.out = [.linkFlit p 4] ∧ only t) ∧
      (∀ (h : Hello) n, o.st = .negotiating → s.net.node = some n →
        linkVersion h.lo h.hi = none ∨ (∃ v, linkVersion h.lo h.hi = some v ∧ (h.node = n ∨ h.node = 0xFFFF)) →
        Completes (exec (.hello p h) s) fun t => (t.port p).st = .dark ∧ (t.port p).darkHeld = true) ∧
      (∀ (h : Hello), o.st = .recovering → h.device = o.partnerDev → h.node = o.partner → Completes (exec (.hello p h) s) fun t =>
        (t.port p).st = .up ∧ .resend p ((h.lastSeq + 1) % 2 ^ 24) ∈ t.out ∧ (t.port p).rxNext = o.rxNext) ∧
      (∀ (h : Hello), o.st = .recovering → h.device ≠ o.partnerDev ∨ h.node ≠ o.partner → Completes (exec (.hello p h) s) fun t =>
        (t.port p).st = .dark) ∧
      (o.st = .authenticating →
        (∀ serial ext nonce, o.authStep = 0 → serial = o.partnerDev → s.admits serial ext = true →
          Completes (exec (.linkAuth p (.certs true serial ext nonce)) s) fun t =>
            t.port p = { o with authStep := 1, peerNonce := nonce } ∧ t.out = [.linkFlit p 5] ∧ only t) ∧
        (∀ theirs, o.authStep = 1 → Completes (exec (.linkAuth p (.secret (some theirs))) s) fun t =>
          (∃ k, t.port p = { o with authStep := 2, master := some k }) ∧ t.out = [.linkFlit p 6]) ∧
        (o.authStep = 2 → Completes (exec (.linkAuth p (.signature true)) s) fun t => (t.port p).st = .up ∧ (t.port p).authed = true) ∧
        (∀ serial ext nonce, Completes (exec (.linkAuth p (.certs false serial ext nonce)) s) fun t =>
          (t.port p).st = .dark ∧ (t.port p).darkHeld = true) ∧
        (Completes (exec (.linkAuth p (.secret none)) s) fun t => (t.port p).st = .dark ∧ (t.port p).darkHeld = true) ∧
        (Completes (exec (.linkAuth p (.signature false)) s) fun t => (t.port p).st = .dark ∧ (t.port p).darkHeld = true)) ∧
      (o.st = .dark → Completes (exec (.presenceBurst p) s) fun t => t = { s with out := [.burst p] }) ∧
      (∀ who, s.Allows who roleConfig → Completes (exec (.portReset p who) s) fun t =>
        (t.port p).st = .dark ∧ (t.port p).retry = [])) ∧
    (p < 8 →
      (o.st = .training → Completes (exec (.trainingTimeout p) s) fun t => (t.port p).st = .dark ∧ t.out = [] ∧ only t) ∧
      (o.darkHeld = true → Completes (exec (.darkHoldExpiry p) s) fun t => t.port p = { o with darkHeld := false } ∧ t.out = [] ∧ only t) ∧
      (o.st = .recovering → Completes (exec (.recoveryExpiry p) s) fun t => (t.port p).st = .dark ∧ (t.port p).retry = [])) ∧
    (s.board.domains.getLsbD 5 = true → s.fabric.laserFault = false → Completes (exec .laserFail s) fun t =>
      t.fabric.laserFault = true ∧ ∀ q, q < 8 → (t.port q).st = .dark ∨ (t.port q).st = .disabled)

/-- R390, R391, R393 to R395, R412, R414, R521: traffic on a port that is UP. A good DATA flit under the key in force with the SEQ expected moves the SEQ on and puts its messages
where they wait; one with another SEQ is answered with a NAK of the last good one; an idle flit takes no SEQ; a NAK is answered with a resend of what
followed; the eighth NAK for one SEQ, or no ACK progress, sends the port to RECOVERING with what is unacknowledged kept; the epochs of the two
directions move on by one; a stall is reported once. -/
def Obligations.PortTraffic : Prop :=
  ∀ (p : Nat) (s : State), s.flits p = true →
    let o := s.port p
    let naks := if o.nakSeq = o.rxNext then o.nakRun + 1 else 1
    let lastGood := (o.rxNext + 2 ^ 24 - 1) % 2 ^ 24
    (∀ f : Flit, f.fecOk = true → f.gcmOk = true → f.epoch % 2 = o.epochRx % 2 → f.nak = false → 3 ≤ f.credVc →
      (f.seq = o.rxNext → Completes (exec (.dataFlit p f) s) fun t =>
        (t.port p).rxNext = (o.rxNext + 1) % 2 ^ 24 ∧ (t.port p).nakOut = false ∧
        (∀ m, f.msgs = [m] → [1, 2, 3, 4, 5].contains m.hdr.mtype = true →
          ([0, 1, 2].any fun vc => channelUnits vc < (modAt (fun c => c + msgUnits m) (msgVc m.hdr) o.rxUsed).getD vc 0) = false →
          (t.port p).inbox = o.inbox ++ [m] ∧ (t.port p).st = .up)) ∧
      (f.seq ≠ o.rxNext → o.nakOut = false → naks < 8 → Completes (exec (.dataFlit p f) s) fun t =>
        t.out.getLast? = some (.nak p lastGood) ∧ (t.port p).nakOut = true ∧ (t.port p).rxNext = o.rxNext ∧ (t.port p).inbox = o.inbox)) ∧
    (∀ f : Flit, f.fecOk = false → o.nakOut = false → naks < 8 → ∀ i, i = .dataFlit p f ∨ i = .idleFlit p f →
      Completes (exec i s) fun t => t.out.getLast? = some (.nak p lastGood) ∧ (t.port p).rxNext = o.rxNext) ∧
    (∀ f : Flit, f.fecOk = true → f.gcmOk = true → f.epoch % 2 = o.epochRx % 2 → Completes (exec (.idleFlit p f) s) fun t =>
      (t.port p).rxNext = o.rxNext ∧ (t.port p).inbox = o.inbox ∧ t.mem = s.mem ∧ t.ctxs = s.ctxs) ∧
    (∀ ack, let run := if o.nakRxSeq = ack then o.nakRx + 1 else 1
      (run < 8 → Completes (exec (.nak p ack) s) fun t =>
        .resend p ((ack + 1) % 2 ^ 24) ∈ t.out ∧
        t.port p = { o.acked ack with nakRx := run, nakRxSeq := ack, txCount := o.txCount + (o.acked ack).retry.length } ∧
        t = { s with fabric := t.fabric, counters := t.counters, ev := t.ev, out := t.out }) ∧
      (8 ≤ run → Completes (exec (.nak p ack) s) fun t => (t.port p).st = .recovering ∧ (t.port p).retry = (o.acked ack).retry)) ∧
    (o.nakOut = true →
      (naks < 8 → Completes (exec (.nakRepeat p) s) fun t => t.out.getLast? = some (.nak p lastGood) ∧ (t.port p).nakRun = naks) ∧
      (8 ≤ naks → Completes (exec (.nakRepeat p) s) fun t => (t.port p).st = .recovering)) ∧
    (o.retry ≠ [] → Completes (exec (.ackStall p) s) fun t => (t.port p).st = .recovering ∧ (t.port p).retry = o.retry) ∧
    (Completes (exec (.rekeyCount p) s) fun t =>
      t.port p = { o with epochTx := o.epochTx + 1, txCount := 0 } ∧ t.out = [.linkFlit p 7] ∧ t = { s with fabric := t.fabric, out := t.out }) ∧
    (Completes (exec (.rekeyAnnounce p (o.epochRx + 1)) s) fun t =>
      t.port p = { o with epochRx := o.epochRx + 1 } ∧ t = { s with fabric := t.fabric, out := [] }) ∧
    (∀ vc us, (o.waitQ.any fun m => msgVc m.hdr == vc) = true →
      (us < 10000 ∨ o.stalled = true → Completes (exec (.creditStall p vc us) s) fun t => t.fabric = s.fabric) ∧
      (10000 ≤ us → o.stalled = false → Completes (exec (.creditStall p vc us) s) fun t => t.port p = { o with stalled := true }))

/-! ## Firmware services and management -/

/-- R310, R499, R500, R555, R556: the mailbox and the SPDM responder answer, and change what the rules let them change. The return codes, message codes and
payload layouts are those of CXL 3.1 and SPDM (log entries 34 and 35), the signatures and nonces free values (log entry 5). -/
def Obligations.MailboxAndSpdm : Prop :=
  ∀ s : State,
    (s.ioOpen = true → s.board.stage = .ready →
      (∃ d, d.length = 16 ∧ d.drop 8 = toLe 8 s.factory.device.toNat ∧ leAt d 2 2 = 0x4800 ∧
        Completes (exec .identify s) fun t => t = { s with out := [.mailbox 0 d] }) ∧
      (∃ d, d.length = 48 ∧ d.drop 16 = slotInfo (some s.fw.running) ++ slotInfo s.fw.staged ∧
        Completes (exec .getFwInfo s) fun t => t = { s with out := [.mailbox 0 d] }) ∧
      (∀ d v, s.fw.xferOpen = false → Completes (exec (.transferFw 1 2 0 d v) s) fun t =>
        t = { s with fw := { s.fw with xferOpen := true, xfer := d }, out := [.mailbox 0 []] }) ∧
      (∀ off d v, s.fw.xferOpen = true → 128 * off = s.fw.xfer.length →
        (Completes (exec (.transferFw 2 2 off d v) s) fun t =>
          t = { s with fw := { s.fw with xfer := s.fw.xfer ++ d }, out := [.mailbox 0 []] }) ∧
        (Completes (exec (.transferFw 3 2 off d v) s) fun t =>
          t.fw.staged = (if s.imageOk (s.fw.xfer ++ d) v then some (imageOf (s.fw.xfer ++ d)) else none) ∧ t.fw.xferOpen = false ∧
          t.out.getLast? = some (.mailbox 0 []))) ∧
      (∀ mode, mode < 2 →
        (s.mayActivate = true → Completes (exec (.activateFw mode 2) s) fun t =>
          t = { s with fw := { s.fw with activation := some { turn := if mode = 0 then some 0 else none } }, out := [.mailbox 0 []] }) ∧
        (s.mayActivate = false → Completes (exec (.activateFw mode 2) s) fun t => t = { s with out := [.mailbox 6 []] })) ∧
      (∃ d, d.length = 28 ∧ Completes (exec .getSupportedLogs s) fun t => t = { s with out := [.mailbox 0 d] }) ∧
      (∀ off n, off + n ≤ 24 → ∃ d, d.length = n ∧ Completes (exec (.getLog celUuid off n) s) fun t =>
        t = { s with fresh := s.fresh + 24, out := [.mailbox 0 d] })) ∧
    (∀ tr, s.spdmUp tr = true →
      (Completes (exec (.getVersion tr) s) fun t => t.spdmStage tr = 1 ∧ t.fw = s.fw ∧ t.sec = s.sec ∧
        t.out = [.spdm 0x04 [0, 2, 0, 0x12, 0, 0x13]]) ∧
      (1 ≤ s.spdmStage tr → Completes (exec (.getCapabilities tr) s) fun t => 2 ≤ t.spdmStage tr ∧ t.out = [.spdm 0x61 [0x16, 2, 0, 0]]) ∧
      (∀ offer, 2 ≤ s.spdmStage tr → offer.contains 1 = true → offer.contains 2 = true → Completes (exec (.negotiateAlgorithms tr offer) s) fun t =>
        t.spdmStage tr = 3 ∧ t.out = [.spdm 0x63 [1, 2]]) ∧
      (s.spdmStage tr < 3 → Completes (exec (.getDigests tr) s) fun t => t = { s with out := [.spdm 0x7F [4]] }) ∧
      (3 ≤ s.spdmStage tr →
        (Completes (exec (.getDigests tr) s) fun t => t = { s with out := [.spdm 0x01 (digestBytes (sha512 s.akCert))] }) ∧
        (∀ off n, off ≤ s.akCert.length →
          let part := (s.akCert.drop off).take n
          Completes (exec (.getCertificate tr 0 off n) s) fun t =>
            t = { s with out := [.spdm 0x02 (toLe 2 part.length ++ toLe 2 (s.akCert.length - off - part.length) ++ part)] }) ∧
        (∀ nonce, ∃ own, own.length = 32 ∧ Completes (exec (.challenge tr 0 nonce) s) fun t =>
          let d := digestBytes (sha512 s.akCert) ++ own
          t = { s with fresh := s.fresh + 1, out := [.spdm 0x03 (d ++ fitTo 512 (s.akSign (d ++ nonce)))] }) ∧
        (∀ nonce i, 1 ≤ i → i ≤ 6 → ∃ own, own.length = 32 ∧ Completes (exec (.getMeasurements tr i nonce) s) fun t =>
          let d := [1] ++ s.measureBlock i ++ own
          t = { s with fresh := s.fresh + 1, out := [.spdm 0x60 (d ++ fitTo 512 (s.akSign (d ++ nonce)))] }) ∧
        (∀ dh, tr = .doe → Completes (exec (.keyExchange tr 0 dh) s) fun t => t.host.handshake = true ∧ t.host.session = false ∧
          t.rings = s.rings ∧ t.mem = s.mem)) ∧
      (∀ ok, tr = .doe → s.host.handshake = true → Completes (exec (.finish tr ok) s) fun t =>
        t = { s with host := { s.host with handshake := false, session := ok }, out := t.out }) ∧
      (tr = .doe → s.host.session = true → Completes (exec (.endSession tr) s) fun t =>
        t = { s with host := { s.host with session := false }, out := [.spdm 0x6C []] }))

/-- R297, R474, R481, R503 to R508, R512, R528, R559, R561: requests of management. With the role that R504 asks for, a request has its effect; without it,
it is refused, the failure is counted against its source, and nothing else changes. A block ends, and a key is removed at its turn. The HTTP status
codes are the model's choice (log entry 25), as is the role that resets and keeper requests ask for (log entry 93). -/
def Obligations.Management : Prop :=
  ∀ (who : Client) (s : State),
    (∀ i roles,
      (i = .releaseOwnership who ∧ roles = [.admin]) ∨
      (∃ a b c, i = .mgmtRead who a b c ∧ roles = [.admin, .operator, .keysvc, .reader]) ∨
      (∃ b, i = .eventSubscribe who b ∧ roles = [.admin, .operator, .keysvc, .reader]) ∨
      (∃ a, i = .telemetryClear who a ∧ roles = [.admin, .operator]) ∨
      (∃ a b, i = .weightKeyImport who a b ∧ roles = [.keysvc]) ∨ (∃ d, i = .weightKeyRemove who d ∧ roles = [.keysvc]) ∨
      (∃ a b c d e f, i = .refCollectionCreate who a b c d e f ∧ roles = [.admin, .operator]) ∨
      (∃ a b, i = .refCollectionLoad who a b ∧ roles = [.admin, .operator]) ∨ (∃ a, i = .refCollectionDelete who a ∧ roles = [.admin, .operator]) ∨
      (∃ a, i = .retestRequest who a ∧ roles = [.admin, .operator]) ∨ (∃ x, i = .mgmtContextReset who x ∧ roles = [.admin, .operator]) ∨
      (∃ a b, i = .fwStage who a b ∧ roles = [.admin, .operator]) ∨ (∃ a, i = .fwActivateRequest who a ∧ roles = [.admin, .operator]) ∨
      (∃ p, i = .portReset p who ∧ roles = [.admin, .operator]) ∨ (i = .mgmtWarmReset who ∧ roles = [.admin, .operator]) ∨
      (i = .mgmtColdReset who ∧ roles = [.admin, .operator]) ∨ (∃ e, i = .mgmtKeeperRequest who e ∧ roles = [.admin, .operator]) ∨
      (∃ a b, i = .turnSourceSelect who a b ∧ roles = [.admin, .operator]) ∨ (i = .turnConflictClear who ∧ roles = [.admin, .operator]) ∨
      (∃ a b l, i = .mgmtConfigChange who a b (.allowList l) ∧ roles = [.admin]) ∨
      (∃ a b w, i = .mgmtConfigChange who a b (.capM w) ∧ roles = [.admin, .operator]) →
      s.mgmtUp = true → who.src ∉ s.sec.blocked → s.permits who roles = false → Completes (exec i s) fun t =>
        t.out.getLast? = some (.http 403 []) ∧ (who.src, s.now) ∈ t.sec.authFails ∧ t.turn = s.turn ∧ t.params = s.params ∧ t.net = s.net ∧
        t.gov = s.gov ∧ t.ctxs = s.ctxs ∧ t.colls = s.colls ∧ t.cmds = s.cmds ∧ t.mem = s.mem ∧ t.fw = s.fw ∧ t.counters = s.counters) ∧
    (∀ code anchors admin, s.mgmtUp = true → s.board.stage ≠ .recovery → who.src ∉ s.sec.blocked → who.tls = true → s.sec.owned = false →
      s.claimOk code anchors = true → Completes (exec (.claim who code anchors admin) s) fun t =>
        t.sec.owned = true ∧ t.sec.anchors = anchors ∧ t.sec.idents = [(admin, [.admin])] ∧ t.fw.fieldDirty = true) ∧
    (∀ code anchors admin, s.mgmtUp = true → who.src ∉ s.sec.blocked → s.sec.owned = true → Completes (exec (.claim who code anchors admin) s) fun t =>
      t.sec.owned = true ∧ t.sec.anchors = s.sec.anchors ∧ t.sec.idents = s.sec.idents) ∧
    (who.src ∈ s.sec.blocked → s.mgmtUp = true →
      (∀ r a b, Completes (exec (.mgmtRead who r a b) s) fun t => t = { s with out := [] }) ∧
      (Completes (exec (.mgmtBlockExpiry who.src) s) fun t => who.src ∉ t.sec.blocked ∧ t.params = s.params ∧ t.fw = s.fw)) ∧
    (s.Allows who [.admin] → Completes (exec (.releaseOwnership who) s) fun t =>
      t.sec.owned = false ∧ t.sec.anchors = [] ∧ t.sec.idents = [] ∧ t.sec.allow = [] ∧ t.sec.wkeys = [] ∧ t.net.routes = [] ∧
      t.params = s.params ∧ t.ctxs = s.ctxs) ∧
    (∀ turn etag c, s.Allows who (changeRoles c) → etag = none ∨ etag = some s.sec.etag → s.changeOk c = true →
      (changeStep c ≠ .now → Completes (exec (.mgmtConfigChange who turn etag c) s) fun t =>
        t.sched = s.sched ++ [(s.turn.fileTurn turn, c)] ∧ t.sec.etag = s.sec.etag + 1 ∧ t.fw.fieldDirty = true ∧ t.params = s.params ∧ t.net = s.net ∧
        t.gov = s.gov) ∧
      (changeStep c = .now → Completes (exec (.mgmtConfigChange who turn etag c) s) fun t =>
        t.params = (s.applyChange c).params ∧ t.gov = (s.applyChange c).gov ∧ t.sec = { (s.applyChange c).sec with etag := s.sec.etag + 1 } ∧
        t.sched = s.sched ∧ t.fw.fieldDirty = true)) ∧
    (∀ turn c, s.Allows who (changeRoles c) → s.changeOk c = false → Completes (exec (.mgmtConfigChange who turn none c) s) fun t =>
      t = { s with out := [.http 400 []] }) ∧
    (s.Allows who [.admin, .operator, .keysvc, .reader] →
      (∀ src x n d u, s.mgmtAnswer src x n = (some d, u) → Completes (exec (.mgmtRead who src x n) s) fun t => t = { u with out := [.http 200 d] }) ∧
      (s.sec.subs < 8 → Completes (exec (.eventSubscribe who true) s) fun t =>
        t = { s with sec := { s.sec with subs := s.sec.subs + 1 }, out := [.http 204 []] }) ∧
      (8 ≤ s.sec.subs → Completes (exec (.eventSubscribe who true) s) fun t => t = { s with out := [.http 400 []] })) ∧
    (s.Allows who [.admin, .operator] →
      (∀ l, l.all counterAt = true → Completes (exec (.telemetryClear who l) s) fun t =>
        (∀ a ∈ l, Tab.look t.counters {} a = {}) ∧ (∀ a, a ∉ l → Tab.look t.counters {} a = Tab.look s.counters {} a)) ∧
      (∀ u, s.mayRetest u = true → Completes (exec (.retestRequest who u) s) fun t =>
        u ∈ t.fw.retests ∧ t = { s with fw := { s.fw with retests := t.fw.retests }, out := t.out }) ∧
      (∀ x, s.serving = true → x < 256 → s.mayReset x = true → Completes (exec (.mgmtContextReset who x) s) fun t => (t.ctx x).kernels = []) ∧
      (∀ id part au w rep, s.serving = true → s.collOk id part au w = true → Completes (exec (.refCollectionCreate who id part au w rep false) s) fun t =>
        Tab.opt t.colls id = some { part := part, atUse := au, width := w, wantReplica := rep } ∧
        t = { s with colls := t.colls, out := t.out }) ∧
      (∀ id k b l, s.serving = true → Tab.opt s.colls id = some k → k.load = none → k.body.manifest = none → s.collRun k b = some l →
        Completes (exec (.refCollectionLoad who id b) s) fun t =>
          Tab.opt t.colls id = some { k with load := some l, body := { digest := l.digest, st := .loading, atUse := k.atUse, width := k.width,
                                                                       slot := k.slot } } ∧ t = { s with colls := t.colls, out := t.out }) ∧
      (∀ id k, s.serving = true → Tab.opt s.colls id = some k → k.load = none → s.mappers id = [] →
        Completes (exec (.refCollectionDelete who id) s) fun t =>
          Tab.opt t.colls id = none ∧ ∀ p ∈ s.genPages (.coll id), ∀ j, j < Config.page → Tab.look t.mem.data 0 (p * Config.page + j) = 0) ∧
      (∀ id k, s.serving = true → Tab.opt s.colls id = some k → s.mappers id ≠ [] → Completes (exec (.refCollectionDelete who id) s) fun t =>
        t = { s with out := [.http 409 []] })) ∧
    (s.Allows who [.keysvc] →
      (∀ r o k, s.keyEntry r o = some k → Completes (exec (.weightKeyImport who r o) s) fun t =>
        t.sec.wkeys = (s.sec.wkeys.filter fun e => e.digest != k.digest) ++ [k] ∧ t = { s with sec := { s.sec with wkeys := t.sec.wkeys }, out := t.out }) ∧
      (∀ d, (s.sec.wkeys.any fun k => k.digest == d) = true → Completes (exec (.weightKeyRemove who d) s) fun t =>
        (∀ k ∈ t.sec.wkeys, k.digest ≠ d) ∧ t = { s with sec := { s.sec with wkeys := t.sec.wkeys }, out := t.out })) ∧
    (∀ d, (s.sec.wkeys.any fun k => k.digest == d && k.expires != 0 && k.expires ≤ s.turn.count) = true →
      Completes (exec (.weightKeyExpiry d) s) fun t =>
        (∀ k ∈ t.sec.wkeys, k.digest ≠ d) ∧ t = { s with sec := { s.sec with wkeys := t.sec.wkeys }, out := [] })

/-- R476 to R478, R545, R546, R554 to R557, R559: firmware. An image that arrives is staged only if it verifies; an activation that is in order copies the
staged image into the image region; the recovery loader writes an image that verifies and starts again; the field area takes the values in force and
the requests that waited for it are answered; a heartbeat starts or feeds the watchdog, whose end is rest and a warm reset, or keeper mode. -/
def Obligations.FirmwareUpdate : Prop :=
  ∀ s : State,
    (∀ who, s.Allows who [.admin, .operator] →
      (∀ d v, s.fw.xferOpen = false → Completes (exec (.fwStage who d v) s) fun t =>
        t.fw = { s.fw with staged := if s.imageOk d v then some (imageOf d) else none, xferOpen := false, xfer := [] } ∧
        t.board = s.board ∧ t.ctxs = s.ctxs) ∧
      (∀ d v, s.fw.xferOpen = true → Completes (exec (.fwStage who d v) s) fun t => t = { s with out := [.http 503 []] }) ∧
      (∀ n, s.mayActivate = true → Completes (exec (.fwActivateRequest who n) s) fun t =>
        t = { s with fw := { s.fw with activation := some { turn := some n } }, out := [.http 202 []] }) ∧
      (∀ n, s.mayActivate = false → Completes (exec (.fwActivateRequest who n) s) fun t => t = { s with out := [.http 409 []] })) ∧
    (∀ a, s.mgmtUp = true → s.board.stage ≠ .recovery → s.fw.activation = some a → a.copied = false →
      (Completes (exec (.fwCopyDone true) s) fun t =>
        t.fw = { s.fw with image := s.fw.staged.getD s.fw.image, activation := some { a with copied := true } } ∧ t.ev = s.ev) ∧
      (Completes (exec (.fwCopyDone false) s) fun t => t.fw = { s.fw with image := s.fw.staged.getD s.fw.image, activation := none })) ∧
    (s.board.stage = .recovery → s.factory.ok = true →
      (∀ d v, s.imageOk d v = true → Completes (exec (.recoveryImageWrite d v) s) fun t =>
        t.fw.image = imageOf d ∧ t.board.stage = .rom ∧ t.mem = {} ∧ t.ctxs = []) ∧
      (∀ d v, s.imageOk d v = false → Completes (exec (.recoveryImageWrite d v) s) fun t => t = { s with out := [] }) ∧
      (∀ i, s.stagedOk = some i → Completes (exec .recoveryCopyStaged s) fun t => t.fw.image = i ∧ t.board.stage = .rom)) ∧
    (s.mgmtUp = true → s.board.stage ≠ .tripped → s.fw.fieldDirty = true → Completes (exec .fieldAreaWrite s) fun t =>
      t = { s with fw := { s.fw with field := s.start.fieldNow, fieldSeq := s.fw.fieldSeq + 1, fieldDirty := false, answers := 0 },
                   out := List.replicate s.fw.answers (.http 204 []) }) ∧
    (∀ p, p < 4 →
      (s.board.stage = .ready ∨ s.board.stage = .cores → 2 ∉ s.board.faulted → Completes (exec (.heartbeat p) s) fun t =>
        t.board.hbSeen = true ∧ Tab.look t.board.hbAge 0 p = s.now ∧ p ∉ t.board.hbLate ∧
        t = { s with board := { s.board with hbSeen := true, hbAge := t.board.hbAge, hbLate := t.board.hbLate }, out := [] }) ∧
      (s.watchdogOn = true → p ∉ s.board.hbLate → 500000 ≤ s.hbOld p → Completes (exec (.fwHeartbeatLate p) s) fun t =>
        p ∈ t.board.hbLate ∧ t.cmds = s.cmds ∧ t.ctxs = s.ctxs) ∧
      (s.watchdogOn = true → s.powered = true → 5000000 ≤ s.hbOld p →
        (s.params.watchdogKeep = false → Completes (exec (.fwWatchdog p) s) fun t =>
          t.board.warm = some 3 ∧ t.cmds = [] ∧ t.rings = [] ∧ t.cores = [] ∧ t.turn = s.turn) ∧
        (s.params.watchdogKeep = true → Completes (exec (.fwWatchdog p) s) fun t => t.board.stage = .keeper ∧ .watchdog ∈ t.board.keeper)))

/-! ## The setup registers -/

/-- R320, R328, R472, R529, R552, R579, R580, R584 to R588, R596, R597: writes of the setup registers, and what they start. A write that a rule refuses sets its
bit of ERRCAP and changes nothing else; ones written to ERRCAP clear its bits; a write of a wrong size or alignment is BAD_ACCESS, and one to an
offset that is not implemented is an Unsupported Request. What ERRCAP_FIRST and ERRCAP_TURN read once no bit is left, and when an ADMIN_RING
write is held, are the model's readings (log entries 105 and 106), as is that a locked HOST_CAP refuses every value as LOCK_VIOLATION alone (log entry
136). -/
def Obligations.SetupRegisters : Prop :=
  ∀ (v : Word) (s : State), s.ioOpen = true →
    let err := fun (bit : Nat) (t : State) => t.regs.errcap.testBit bit = true ∧ t = { s with regs := t.regs, out := [] }
    (Completes (exec (.errcapClear v) s) fun t =>
      (∀ i, i < 6 → t.regs.errcap.testBit i = (s.regs.errcap.testBit i && !bitAt v i)) ∧
      (t.regs.errcap = 0 → t.regs.errFirst = 0 ∧ t.regs.errTurn = 0) ∧ t = { s with regs := t.regs, out := [] }) ∧
    (∀ off n, n ≠ 8 ∨ off % 8 ≠ 0 → Completes (exec (.regWrite off n v) s) (err 5)) ∧
    (∀ off, off % 8 = 0 → ownRow off = false →
      (s.readReg off = none → Completes (exec (.regWrite off 8 v) s) fun t =>
        t.out.drop (t.out.length - 2) = [.unsupported, .aer 0 20] ∧ t.regs = s.regs) ∧
      (s.readReg off ≠ none → off ≠ 0x20008 → Completes (exec (.regWrite off 8 v) s) fun t => t = { s with out := [] })) ∧
    (s.board.stage ≠ .recovery →
      (s.readReg 0x20008 ≠ none → Completes (exec (.regWrite 0x20008 8 v) s) fun t =>
        t = { s with regs := { s.regs with treadLedger := v }, out := [] }) ∧
      (s.regs.hostCapLock = false → v.toNat % 2 ^ 11 ≤ 1900 → Completes (exec (.hostCap v) s) fun t =>
        t = { s with gov := { s.gov with capH := v.toNat % 2 ^ 11 }, regs := { s.regs with hostCapLock := bitAt v 16 }, out := [] }) ∧
      (s.regs.hostCapLock = true → Completes (exec (.hostCap v) s) (err 0)) ∧
      (s.regs.hostCapLock = false → 1900 < v.toNat % 2 ^ 11 → Completes (exec (.hostCap v) s) (err 4)) ∧
      (∀ hdr, bitAt v 0 = true →
        (s.regs.adminEnable = true → Completes (exec (.adminRingEnable v hdr) s) fun t =>
          t = { s with regs := { s.regs with adminHdr := v &&& ~~~(0x7F : Word) }, out := [] }) ∧
        (s.regs.adminEnable = false → s.ringService = false ∨ (s.ring .admin).isSome → Completes (exec (.adminRingEnable v hdr) s) fun t =>
          t = { s with regs := { s.regs with adminHdr := v &&& ~~~(0x7F : Word), adminEnable := true, adminHeld := some hdr }, out := [] }) ∧
        (∀ b n, hdr = some b → s.regs.adminEnable = false → s.ringService = true → s.ring .admin = none → s.headerCheck 0 (fitTo 128 b) = (0, 0, n) →
          Completes (exec (.adminRingEnable v hdr) s) fun t =>
            (t.ring .admin).isSome ∧ t.regs.adminEnable = true ∧ t.regs.adminHeld = none ∧ t.cmds = s.cmds)) ∧
      (bitAt v 0 = false → Completes (exec (.adminRingDisable v) s) fun t =>
        t.regs.adminEnable = false ∧ t.regs.adminHeld = none ∧
        (s.regs.adminEnable = true → ∀ q, t.ring .admin = some q → q.enabled = false) ∧
        (s.regs.adminEnable = false → t.rings = s.rings ∧ t.cmds = s.cmds)) ∧
      (∀ q, s.ring .admin = some q → q.enabled = true → q.mmio = true → v.toNat / 2 ^ 48 % 2 ^ 15 = 0 → ahead32 (v.toNat % 2 ^ 32) q.cons.toNat ≤ 2 ^ q.sqLog →
        Completes (exec (.adminDb v) s) fun t => ∃ q', t.ring .admin = some q' ∧ q'.prod = v.truncate 32 ∧ q'.cqHead = (v >>> 32).truncate 16) ∧
      ((∀ q, s.ring .admin = some q → q.mmio = false) → Completes (exec (.adminDb v) s) fun t => t.rings = s.rings ∧ t.cmds = s.cmds) ∧
      (∀ f, s.functionOn f = true →
        (field v 8 4 ≤ 8 → Completes (exec (.evqBase f v) s) fun t =>
          let q := Tab.look s.ev.queues {} f
          let q' := Tab.look t.ev.queues {} f
          q'.base = v &&& ~~~(0xFE : Word) ∧ q'.held = q.held ∧
          (bitAt v 0 = true → bitAt q.base 0 = false → q'.head = 0 ∧ q'.written = 0) ∧ (bitAt q.base 0 = true → q'.head = q.head ∧ q'.written = q.written)) ∧
        (Completes (exec (.evqHead f v) s) fun t => (Tab.look t.ev.queues {} f).head = v.truncate 32 ∧
          (Tab.look t.ev.queues {} f).held = (Tab.look s.ev.queues {} f).held)) ∧
      (Completes (exec .turnCountRead s) fun t =>
        t = { s with turn := { s.turn with latched := s.turn.phase }, out := [.value s.turn.count] })) ∧
    (∀ f r l, (Tab.look s.ev.queues {} f).held = r :: l → s.hostWrites = true → s.htUp = true → s.mgmtUp = true → s.functionOn f = true →
      (Tab.look s.ev.queues {} f).room = true → Completes (exec (.eventDelivery f) s) fun t =>
        let q := Tab.look s.ev.queues {} f
        let q' := Tab.look t.ev.queues {} f
        q'.held = l ∧ q'.written = q.written + 1 ∧ q'.lostNext = false ∧
        Tab.span t.hostMem 0 (hostKey f (field q.base 12 52 * 4096 + 128 * (q.written % q.size))) 128 =
          ({ r with lost := q.lostNext } : EvRec).bytes (q.written / q.size % 2 = 0)) ∧
    (s.serving = true →
      (∀ f, f < 256 →
        (f < s.params.cxlMem → (bitAt v 63 && s.frameRefused (field v 0 13)) = false → Completes (exec (.frameEntry f v) s) fun t =>
          Tab.look t.host.frames 0 f = v &&& 0xC000000000001FFF ∧ (∀ g, g ≠ f → Tab.look t.host.frames 0 g = Tab.look s.host.frames 0 g)) ∧
        (f < s.params.cxlMem → (bitAt v 63 && s.frameRefused (field v 0 13)) = true → Completes (exec (.frameEntry f v) s) (err 1)) ∧
        (s.params.cxlMem ≤ f → Completes (exec (.frameEntry f v) s) (err 4))) ∧
      (Completes (exec (.treadSel v) s) fun t =>
        t = { s with regs := { s.regs with treadSel := v &&& ~~~(0x0700000000000000 : Word), treadState := if 6 ≤ v.toNat / 2 ^ 60 then 3 else 1,
                                           treadLen := 0, treadData := [] }, out := [] }) ∧
      (s.regs.treadState = 1 →
        (∀ d, s.recordAt s.regs.treadSel s.regs.treadLedger = some d → Completes (exec .recordCopyDone s) fun t =>
          t.regs = { s.regs with treadState := 0, treadLen := d.length, treadData := d }) ∧
        (s.recordAt s.regs.treadSel s.regs.treadLedger = none → Completes (exec .recordCopyDone s) fun t =>
          t = { s with regs := { s.regs with treadState := 2 }, out := [] })) ∧
      ((s.closedLedgers.any fun l => l.ctx == v.toNat % 256 && l.openTurn == s.regs.treadLedger) = true →
        Completes (exec (.ledgerRelease v) s) fun t =>
          (∀ l ∈ t.closedLedgers, ¬ (l.ctx = v.toNat % 256 ∧ l.openTurn = s.regs.treadLedger)) ∧
          t = { s with closedLedgers := t.closedLedgers, out := [] }) ∧
      ((s.closedLedgers.any fun l => l.ctx == v.toNat % 256 && l.openTurn == s.regs.treadLedger) = false →
        Completes (exec (.ledgerRelease v) s) (err 3)))

/-! ## Start, resets and keeper mode -/

/-- R324, R479, R485 to R488, R544, R548, R549, R551, R553 to R555: start-up and resets. A cold start with a good factory area and image brings the Volud to
the core stage, its memory zero and its firmware running; a bad image or factory area leaves it in the recovery loader. Without input, and in a cold
reset, nothing is left but what the flash, the fuses and the pins hold. A warm reset clears cores, rings and commands, and keeps the turn unit; the
host link's loss leads to one after its 100 ms. READY begins service, or keeper mode where a cause stands. That
all start-up steps run in one command, and what stands in the fields no rule resets, are the model's choices (log entries 37, 89, 91 and 93),
as is that a function level reset keeps BARs and AER status (log entry 140). -/
def Obligations.StartAndResets : Prop :=
  ∀ s : State,
    let warm := fun (cause : Nat) (t : State) =>
      t.board.warm = some cause ∧ t.board.warmCause = cause ∧ t.cores = [] ∧ t.rings = [] ∧ t.cmds = [] ∧ t.turn = s.turn ∧ t.now = s.now
    let cold := fun (t : State) => t.mem = {} ∧ t.ctxs = [] ∧ t.cores = [] ∧ t.cmds = [] ∧ t.turn = {} ∧ t.fw.image = s.fw.image ∧
      t.fw.field = s.fw.field ∧ t.fw.svnFloor = s.fw.svnFloor
    (s.board.stage = .off ∨ s.board.stage = .rom → ∀ failed cols lanes,
      (s.factory.ok = true → s.fw.image.major = 1 → s.fw.svnFloor ≤ s.fw.image.svn → Completes (exec (.coldStart true true false failed cols lanes false) s)
        fun t => t.board.stage = .cores ∧ t.mem.data = [] ∧ t.sec.akExists = true ∧ t.fw.running = t.fw.image ∧ t.cmds = [] ∧ t.turn.count = 0 ∧
          ∀ q, q < 4 → t.mem.avail.getLsbD q = !(failed.any fun ch => ch < 384 && ch / 96 == q)) ∧
      (∀ f h l, Completes (exec (.coldStart false f h failed cols lanes l) s) fun t => t.board.stage = .recovery ∧ t.board.domains = recoveryDomains) ∧
      (∀ i f h l, s.factory.ok = false → Completes (exec (.coldStart i f h failed cols lanes l) s) fun t => t.board.stage = .recovery)) ∧
    (s.board.stage ≠ .off → Completes (exec .inputRemoved s) fun t => cold t ∧ t.board.stage = .off ∧ t.board.domains = 0) ∧
    (∀ who, s.Allows who [.admin, .operator] → Completes (exec (.mgmtColdReset who) s) fun t => cold t ∧ t.board.stage = .rom ∧ t.out = [.http 204 []]) ∧
    (s.board.stage = .cores → s.sec.akExists = true → s.mem.avail ≠ 0 → s.fw.image.ok = true → s.board.warm = none →
      (s.board.keeper = [] → Completes (exec (.ready {}) s) fun t =>
        t.board.stage = .ready ∧ t.gov.st = .governed ∧ t.fw.svnFloor = max s.fw.svnFloor s.fw.running.svn ∧ t.turn = s.turn) ∧
      (s.board.keeper ≠ [] → Completes (exec (.ready {}) s) fun t => t.board.stage = .keeper ∧ t.board.domains = s.upDomains &&& keeperDomains)) ∧
    (s.board.stage ≠ .off → s.board.resetAsserted = false → Completes (exec .boardResetAssert s) fun t =>
      t.board.resetAsserted = true ∧ t.linkUp = false ∧ (s.mayWarm = true → warm 0 t) ∧ (s.mayWarm = false → t.cmds = s.cmds ∧ t.ctxs = s.ctxs)) ∧
    (s.board.resetAsserted = true → Completes (exec .boardResetDeassert s) fun t =>
      t = { s with board := { s.board with resetAsserted := false }, out := [] }) ∧
    (s.mayWarm = true →
      (s.linkUp = true → Completes (exec .hotReset s) (warm 1)) ∧
      (s.board.linkDownCount = true → s.linkUp = false → Completes (exec .hostLinkDownExpiry s) (warm 2)) ∧
      (∀ who, s.Allows who [.admin, .operator] → Completes (exec (.mgmtWarmReset who) s) (warm 4)) ∧
      (∀ e, Completes (exec (.hubFatal e) s) (warm 5))) ∧
    (s.linkUp = true → s.mgmtUp = true → Completes (exec .hostLinkDown s) fun t =>
      t.host.link = .down ∧ t.host.holdCpl = true ∧ t.board.linkDownCount = true ∧ (∀ e ∈ t.rings, e.2.lineHeld = false) ∧
      t = { s with host := { s.host with link := .down, holdCpl := true }, rings := t.rings,
                   board := { s.board with linkDownCount := true }, out := [] }) ∧
    (s.board.linkDownCount = true → s.linkUp = false → s.board.resetAsserted = false → 1 ∉ s.board.faulted → ∀ l, Completes (exec (.hostLinkRetrain l) s) fun t =>
      t.host.link = .full ∧ t.host.holdCpl = false ∧ t.board.linkDownCount = false ∧ t.cmds = s.cmds ∧ t.mem = s.mem) ∧
    (∀ f, s.linkUp = true → f ≤ s.host.vfs → s.board.stage ≠ .recovery → Completes (exec (.flr f) s) fun t =>
      f ∉ t.host.ats ∧ (∀ e ∈ t.host.atc, e.1 ≠ f) ∧ (∀ k ∈ t.host.unmasked, k / 2048 ≠ f) ∧ (∀ k ∈ t.host.pendingMsix, k / 2048 ≠ f) ∧ f ∉ t.host.msixOn ∧
      (t.host.bars = s.host.bars ∧ t.host.aerUnc = s.host.aerUnc ∧ t.host.vfs = s.host.vfs) ∧
      (f = 0 → t.ring .admin = none ∧ t.regs.adminEnable = false) ∧
      ∀ x cx, s.ctxs = [(x, cx)] → cx.req.func = f →
        (s.serving = false → cx.st ≠ .closed → cx.st ≠ .scrubbing → (t.ctx x).marked = true) ∧
        (s.serving = true → cx.st = .idle ∨ cx.st = .waiting ∨ cx.st = .running → cx.opening = none → (t.ctx x).st = .scrubbing)) ∧
    (∀ x, s.serving = true → (s.ctx x).st = .recoverable → (s.ctx x).closeCmd = none → Completes (exec (.recoveryPeriodExpiry x) s) fun t =>
      (t.ctx x).st = .scrubbing)

/-- R22, R23, R25, R378, R449, R455, R456, R482, R483, R489 to R492, R571: keeper mode, lost domains, and units that are reset. A keeper cause takes a serving Volud to
keeper mode, its memory in self-refresh and only HM, HX and HT powered; a regulator fault takes power from the domain and all that depend on it; a
die trip leaves only HM; a core that hangs is reset, and its command fails as POISONED; the brake brings every quadrant to OP7 at once. What else a
regulator fault and a trip take with them is the model's reading (log entries 90 and 101). -/
def Obligations.KeeperAndDomains : Prop :=
  ∀ s : State,
    let kept := fun (cause : KeeperCause) (t : State) => t.board.stage = .keeper ∧ cause ∈ t.board.keeper ∧ t.mem.selfRefresh = 0xF ∧
      t.board.domains = s.board.domains &&& keeperDomains ∧ t.gov.st = .keeper ∧ t.turn.count = s.turn.count
    (∀ cause hung, s.powered = true → Completes (exec (.keeperEntry cause hung) s) (kept cause)) ∧
    (∀ who, s.Allows who [.admin, .operator] →
      (s.powered = true → Completes (exec (.mgmtKeeperRequest who true) s) (kept .request)) ∧
      (s.board.stage = .keeper → Completes (exec (.mgmtKeeperRequest who false) s) fun t =>
        .request ∉ t.board.keeper ∧ t.board.mgmtExit = true ∧ t.board.stage = .keeper)) ∧
    (∀ high, s.mgmtUp = true → s.board.inputBad = false → Completes (exec (.inputOutOfRange high) s) fun t =>
      t.board.inputBad = true ∧ .inputRange ∈ t.board.keeper ∧ (s.powered = true → kept .inputRange t)) ∧
    (s.mgmtUp = true → s.board.inputBad = true → Completes (exec .inputRecovered s) fun t =>
      t.board.inputBad = false ∧ .inputRange ∉ t.board.keeper ∧ t.board.stage = s.board.stage) ∧
    (∀ d, d < 46 → s.board.domains.getLsbD d = true → s.board.stage ≠ .off → Completes (exec (.regFault d) s) fun t =>
      (∀ e ∈ dependents d, t.board.domains.getLsbD e = false) ∧ (d ≠ 0 → d ∈ t.board.faulted) ∧ (d = 0 → t.board.stage = .off) ∧
      (d ≠ 0 → ∀ q, q < 4 → 6 + q ∈ dependents d → t.mem.selfRefresh.getLsbD q = true) ∧ (d = 3 → t.turn.st = .unset ∧ t.turn.count = 0) ∧ (d = 4 → s.powered = true → t.board.stage = .keeper)) ∧
    (s.mgmtUp = true → s.board.stage ≠ .tripped → Completes (exec .dieTrip s) fun t =>
      t.board.stage = .tripped ∧ t.board.domains = domainMask [0] ∧ t.mem = {} ∧ t.ctxs = [] ∧ t.sec = s.sec) ∧
    (∀ c x k, s.serving = true → c < 128 → (s.core c).owner = some (x, k) → Completes (exec (.coreHang c) s) fun t =>
      (t.core c).running = false ∧ (∀ a, a < 8 → 8 * c + a ∈ t.units.testDue) ∧
      (((s.ctx x).kernel (s.core c).handle).isSome → s.FailsWith t c 0x06)) ∧
    (∀ q hung failed, s.mayResetQuad q = true →
      (Completes (exec (.quadrantReset q none hung failed) s) fun t =>
        t = ((s.start.raise { code := 0x0407, unit := 7, detail := [q] }).quadrantReset q hung failed).settle s ∧
        ∀ p, p = 2 * q ∨ p = 2 * q + 1 → (t.port p).st = .dark ∨ (t.port p).st = .disabled) ∧
      (∀ who, s.Allows who [.admin, .operator] → Completes (exec (.quadrantReset q (some who) hung failed) s) fun t =>
        ∀ p, p = 2 * q ∨ p = 2 * q + 1 → (t.port p).st = .dark ∨ (t.port p).st = .disabled)) ∧
    (s.mgmtUp = true → s.gov.brake = false → Completes (exec .powerBrakeAssert s) fun t =>
      t.gov.brake = true ∧ (s.powered = true → s.htUp = true → t.gov.forced = true ∧ ∀ q, q < 4 → (t.quad q).op = 7) ∧
      ((s.powered && s.htUp) = false → t = { s with gov := { s.gov with brake := true }, out := [] })) ∧
    (s.gov.brake = true → Completes (exec .powerBrakeDeassert s) fun t => t = { s with gov := { s.gov with brake := false }, out := [] })

/-! ## Turns, power and heat -/

/-- R31 to R36, R38, R39, R42 to R51, R463, R543: the turn unit. A boundary that is due gives the counter the number that is due and the phase 0; marks go out on
every mark port with the next number; a good mark with the next number places its boundary at t + L − d and is followed; a source that is lost leads
to HOLDOVER and, after H turns, to LOST; Sync messages place and slew as the PTP rules say (log entries 26 and 88); a change of a parameter waits for its
boundary where turns count, and acts at once otherwise; energy accounting turns to measurement only and back. -/
def Obligations.TurnsAndTime : Prop :=
  ∀ s : State,
    let u := s.turn
    let only := fun (v : TurnUnit) (t : State) => t = { s with turn := v, out := [] }
    (∀ n e failed ups, s.dueTurn = some n → s.board.domains.getLsbD 3 = true → s.board.stage ≠ .recovery →
      Completes (exec (.turnBoundary e failed ups) s) fun t => t.turn.count = n ∧ t.turn.phase = 0 ∧ t.now = s.now ∧ t.pending = s.pending) ∧
    (∀ root hops, s.markSource = some (root, hops) → u.st.counts = true → u.emitted = false → ¬ (u.st = .free ∧ u.placed.isSome) →
      u.expect ≤ u.phase.toNat + u.params.lead → Completes (exec .markEmit s) fun t =>
        t.turn = { u with emitted := true } ∧ ∀ p ∈ s.markPorts,
          .mark p (Mark.mk (u.count + 1) (BitVec.ofNat 32 u.params.period) (BitVec.ofNat 32 u.params.lead) root (min hops 255)) ∈ t.out) ∧
    (u.st.counts = true → u.stretching = false → u.phase = BitVec.allOnes 32 → Completes (exec .phaseLimit s) fun t =>
      t.turn = { u with placed := some (u.count + 1, s.now) } ∧ t.ctxs = s.ctxs ∧ t.mem = s.mem) ∧
    (∀ p m, p < 8 → (s.port p).st = .up →
      (s.markOk p m = false → Completes (exec (.mark p m) s) fun t => t.turn = { u with discards := u.discards.add 1 }) ∧
      (s.markOk p m = true → u.params.source ≠ some .marks → Completes (exec (.mark p m) s) fun t => t.turn = u) ∧
      (s.markOk p m = true → u.params.source = some .marks → u.st = .locked → u.followed = none ∨ u.followed = some p → u.conflict = false →
        m.turn.toNat = u.count.toNat + 1 → Completes (exec (.mark p m) s) fun t =>
          t.turn.placed = some (m.turn, max (s.now + m.lead.toNat - s.delayOf p) s.now) ∧ t.turn.followed = some p ∧ t.turn.lastMark = some m ∧
          t.turn.st = .locked ∧ t.turn.count = u.count)) ∧
    (u.st = .locked → u.params.source = some .marks →
      (2 ≤ u.silent → Completes (exec .sourceSilence s) fun t => t.turn = u.hold) ∧
      (∀ p l, u.silent < 2 → u.validPrev = p :: l → Completes (exec .sourceSilence s) (only { u with followed := some p }))) ∧
    (u.st = .holdover → u.params.holdLim ≤ u.held → Completes (exec .holdoverLimit s) fun t => t.turn = { u with st := .lost }) ∧
    (∀ d, s.mgmtUp = true → s.ptpOn d = true →
      (∀ origin rx gm, u.ptp.gm = some gm → Completes (exec (.ptpSync ⟨d, origin⟩ rx true gm) s)
        (only { u with ptp := { u.ptp with pendingRx := some (rx, s.now) } })) ∧
      (∀ origin rx gm, u.ptp.gm = some gm → Completes (exec (.ptpSync ⟨d, origin⟩ rx false gm) s) fun t =>
        t.turn.ptp.offset = (rx : Int) - (origin + u.ptp.pathDelay : Nat) ∧ t.turn.ptp.delayReq = some (origin, rx, rx) ∧ .delayReq d ∈ t.out ∧
        t.turn.count = u.count) ∧
      (∀ origin rx arr, u.ptp.pendingRx = some (rx, arr) → Completes (exec (.ptpFollowUp ⟨d, origin⟩) s) fun t =>
        t.turn.ptp.offset = (rx : Int) - (origin + u.ptp.pathDelay : Nat) ∧ t.turn.ptp.pendingRx = none ∧
        t.turn.ptp.delayReq = some (origin, rx, rx + 10 * (s.now - arr)) ∧ .delayReq d ∈ t.out ∧ t.turn.count = u.count) ∧
      (∀ t1 t2 t3 t4, u.ptp.delayReq = some (t1, t2, t3) → Completes (exec (.ptpDelayResp ⟨d, t4⟩) s)
        (only { u with ptp := { u.ptp with pathDelay := ((((t2 : Int) - t1) + ((t4 : Int) - t3)) / 2).toNat, delayReq := none } })) ∧
      (∀ gm old, u.ptp.gm = some old → gm ≠ old → u.st = .locked → Completes (exec (.ptpAnnounce ⟨d, gm⟩) s) fun t =>
        t.turn.st = .holdover ∧ t.turn.ptp.gm = some gm) ∧
      (∀ gm, u.ptp.gm = some gm → Completes (exec (.ptpAnnounce ⟨d, gm⟩) s) (only u)) ∧
      (u.st = .locked → Completes (exec .ptpSyncTimeout s) fun t => t.turn.st = .holdover ∧ t.turn.count = u.count)) ∧
    (∀ d, s.ptpOn d = false →
      (∀ origin rx two gm, Completes (exec (.ptpSync ⟨d, origin⟩ rx two gm) s) (only u)) ∧ (∀ gm, Completes (exec (.ptpAnnounce ⟨d, gm⟩) s) (only u)) ∧
      (∀ origin, Completes (exec (.ptpFollowUp ⟨d, origin⟩) s) (only u)) ∧ (∀ t4, Completes (exec (.ptpDelayResp ⟨d, t4⟩) s) (only u))) ∧
    (∀ who, s.Allows who [.admin, .operator] → s.htUp = true →
      (∀ turn c, u.inRange (u.fileTurn turn) c = true → u.st.counts = true → Completes (exec (.turnSourceSelect who turn c) s) fun t =>
        t.turn = { u with sched := u.sched ++ [(u.fileTurn turn, c)] } ∧ t.fw.fieldDirty = true) ∧
      (∀ turn n, u.inRange (u.fileTurn turn) (.period n) = true → u.st.counts = false → Completes (exec (.turnSourceSelect who turn (.period n)) s) fun t =>
        t.turn = { u with params := { u.params with period := n } } ∧ t.fw.fieldDirty = true) ∧
      (∀ turn, u.st = .unset → u.params.source = none → Completes (exec (.turnSourceSelect who turn (.source .internal)) s) fun t =>
        t.turn.st = .free ∧ t.turn.params.source = some .internal ∧
        t.turn.placed = some (BitVec.ofNat 64 u.params.start, s.now + u.params.period)) ∧
      (∀ turn, u.st = .unset → u.params.source = none → Completes (exec (.turnSourceSelect who turn (.source .marks)) s) fun t =>
        t.turn.st = .locking ∧ t.turn.params.source = some .marks) ∧
      (u.conflict = true → Completes (exec (.turnConflictClear who) s) fun t => t.turn = { u with clearing := true } ∧ t.out = [.http 204 []])) ∧
    (s.serving = true → u.st.counts = true → u.phase = 0 → s.params.sealEvery ≠ 0 → u.count.toNat % s.params.sealEvery = 0 → s.unsealedNow ≠ [] →
      Completes (exec .sealInterval s) fun t =>
        t = (s.unsealedNow.foldl (fun y x => y.seal x 2 none y.gov.st.code) s.start).settle s) ∧
    (s.mustUnreconcile = true → Completes (exec .energyUnreconciled s) fun t => t.gov.measOnly = true ∧ t.gov.agree = 0 ∧ t.turn = u) ∧
    (s.mayReconcile = true → Completes (exec .energyReconciled s) fun t => t.gov = { s.gov with measOnly := false } ∧ t.turn = u)

/-- R259, R260, R441, R445, R451, R454, R456: power and heat. A governor tick lowers one quadrant by a point where the estimate is above the target, and raises one only
after 40 ticks in which there was room; droop stretches a quadrant's clock and ends; a die above 105 °C leads to keeper mode, a quadrant above 95 °C
is lowered; a package above a threshold has its refresh rate raised at once, and it falls once the package has been 3 °C below the threshold for 1 s, which the model
counts as 1 000 readings (log entry 135); a paced turn rests once its parts
are over. The order in which the governor spares hot quadrants is the model's reading (log entry 95). -/
def Obligations.PowerAndHeat : Prop :=
  ∀ s : State,
    (∀ t0 : TickIn, s.powered = true → s.htUp = true → s.gov.st = .governed ∨ s.gov.st = .levelSuspended → s.gov.forced = false →
      (∀ q, s.target < s.estimate t0 → s.lowerQuad t0 = some q → Completes (exec (.governorTick t0) s) fun t =>
        (t.quad q).op = (s.quad q).op + 1 ∧ (∀ r, r ≠ q → t.quad r = s.quad r) ∧ t.gov.raiseRun = 0) ∧
      (∀ q, s.estimate t0 + t0.raise.getD q 0 ≤ s.target → s.raiseQuad t0 = some q →
        (39 ≤ s.gov.raiseRun → Completes (exec (.governorTick t0) s) fun t => (t.quad q).op = (s.quad q).op - 1 ∧ ∀ r, r ≠ q → t.quad r = s.quad r) ∧
        (s.gov.raiseRun < 39 → Completes (exec (.governorTick t0) s) fun t =>
          t = { s with gov := { s.gov with raiseRun := s.gov.raiseRun + 1 }, out := [] })) ∧
      (∀ q, s.estimate t0 ≤ s.target → s.raiseQuad t0 = some q → s.target < s.estimate t0 + t0.raise.getD q 0 →
        Completes (exec (.governorTick t0) s) fun t => t = { s with gov := { s.gov with raiseRun := 0 }, out := [] })) ∧
    (∀ q, s.powered = true → q < 4 →
      ((s.quad q).stretch = false → Completes (exec (.droopDetect q) s) fun t => t.quad q = { s.quad q with stretch := true } ∧ t.board = s.board) ∧
      ((s.quad q).stretch = true → ∀ n, Completes (exec (.droopRecover q n false) s) fun t => t.quad q = { s.quad q with stretch := false })) ∧
    (∀ quad hub, s.board.domains.getLsbD 3 = true → s.powered = true →
      ((∃ t ∈ hub :: quad, (105 : Int) < t) → Completes (exec (.dieTempSample quad hub) s) fun t =>
        t.board.stage = .keeper ∧ .dieCritical ∈ t.board.keeper) ∧
      (∀ a b c d, quad = [a, b, c, d] → (∀ t ∈ hub :: quad, t ≤ (105 : Int)) → Completes (exec (.dieTempSample quad hub) s) fun t =>
        t.board.stage = s.board.stage ∧ ∀ q, q < 4 → let v := quad.getD q 0
          (95 < v → (t.quad q).hot = true ∧ (t.quad q).op = (if (s.quad q).op < 7 then (s.quad q).op + 1 else (s.quad q).op)) ∧
          (v ≤ 92 → (t.quad q).hot = false ∧ (t.quad q).op = (s.quad q).op))) ∧
    (∀ m temp, m < 48 → s.mgmtUp = true → s.board.stage ≠ .recovery → s.board.stage ≠ .tripped →
      Completes (exec (.packageTempSample m temp) s) fun t =>
        Tab.look t.mem.refresh 1 m = max (Tab.look s.mem.refresh 1 m) (if 95 < temp then 4 else if 85 < temp then 2 else 1) ∧
        Tab.look t.mem.temps 0 m = temp ∧ Tab.look t.mem.cool (0, 0) m = coolRun (Tab.look s.mem.cool (0, 0) m) temp ∧
        (temp ≤ 105 → t.mem.data = s.mem.data) ∧ (m ∈ t.mem.hotPkgs ↔ (100 : Int) < temp) ∧
        (105 < temp → .memCritical ∈ t.board.keeper ∧ (s.powered = true → .memCritical ∉ s.board.keeper → t.board.stage = .keeper))) ∧
    (∀ m, m < 48 → let n := refreshFloor (Tab.look s.mem.cool (0, 0) m)
      n < Tab.look s.mem.refresh 1 m → Completes (exec (.refreshRateFall m) s) fun t =>
        Tab.look t.mem.refresh 1 m = n ∧ t = { s with mem := { s.mem with refresh := t.mem.refresh }, out := [] }) ∧
    (s.powered = true → s.htUp = true → s.gov.st = .paced → s.gov.rest = false → s.gov.duty < 64 → s.gov.duty * s.turn.expect ≤ 64 * s.turn.phase.toNat →
      Completes (exec .pacedRest s) fun t => t = { s with gov := { s.gov with rest := true }, out := [] })
end

