-- ==== Sys2Proof/Laws/State.lean ====
section
/-! SUPPORT. One lemma for each field and each named update of the state, so that no later proof unfolds a record update. -/

namespace Sys2Proof.Machine

@[simp] theorem State.start_now (s : State) : s.start.now = s.now := rfl
@[simp] theorem State.start_turn (s : State) : s.start.turn = s.turn := rfl
@[simp] theorem State.start_params (s : State) : s.start.params = s.params := rfl
@[simp] theorem State.start_net (s : State) : s.start.net = s.net := rfl
@[simp] theorem State.start_sched (s : State) : s.start.sched = s.sched := rfl
@[simp] theorem State.start_gov (s : State) : s.start.gov = s.gov := rfl
@[simp] theorem State.start_ev (s : State) : s.start.ev = s.ev := rfl
@[simp] theorem State.start_mem (s : State) : s.start.mem = s.mem := rfl
@[simp] theorem State.start_hostMem (s : State) : s.start.hostMem = s.hostMem := rfl
@[simp] theorem State.start_cores (s : State) : s.start.cores = s.cores := rfl
@[simp] theorem State.start_ctxs (s : State) : s.start.ctxs = s.ctxs := rfl
@[simp] theorem State.start_rings (s : State) : s.start.rings = s.rings := rfl
@[simp] theorem State.start_cmds (s : State) : s.start.cmds = s.cmds := rfl
@[simp] theorem State.start_cmdNo (s : State) : s.start.cmdNo = s.cmdNo := rfl
@[simp] theorem State.start_colls (s : State) : s.start.colls = s.colls := rfl
@[simp] theorem State.start_closedLedgers (s : State) : s.start.closedLedgers = s.closedLedgers := rfl
@[simp] theorem State.start_fabric (s : State) : s.start.fabric = s.fabric := rfl
@[simp] theorem State.start_host (s : State) : s.start.host = s.host := rfl
@[simp] theorem State.start_sec (s : State) : s.start.sec = s.sec := rfl
@[simp] theorem State.start_factory (s : State) : s.start.factory = s.factory := rfl
@[simp] theorem State.start_fw (s : State) : s.start.fw = s.fw := rfl
@[simp] theorem State.start_units (s : State) : s.start.units = s.units := rfl
@[simp] theorem State.start_board (s : State) : s.start.board = s.board := rfl
@[simp] theorem State.start_regs (s : State) : s.start.regs = s.regs := rfl
@[simp] theorem State.start_counters (s : State) : s.start.counters = s.counters := rfl
@[simp] theorem State.start_ctxCounters (s : State) : s.start.ctxCounters = s.ctxCounters := rfl
@[simp] theorem State.start_fresh (s : State) : s.start.fresh = s.fresh := rfl
@[simp] theorem State.start_out (s : State) : s.start.out = [] := rfl
@[simp] theorem State.start_pending (s : State) : s.start.pending = s.pending := rfl

@[simp] theorem State.emit_now (s : State) (o : Out) : (s.emit o).now = s.now := rfl
@[simp] theorem State.emit_turn (s : State) (o : Out) : (s.emit o).turn = s.turn := rfl
@[simp] theorem State.emit_params (s : State) (o : Out) : (s.emit o).params = s.params := rfl
@[simp] theorem State.emit_net (s : State) (o : Out) : (s.emit o).net = s.net := rfl
@[simp] theorem State.emit_sched (s : State) (o : Out) : (s.emit o).sched = s.sched := rfl
@[simp] theorem State.emit_gov (s : State) (o : Out) : (s.emit o).gov = s.gov := rfl
@[simp] theorem State.emit_ev (s : State) (o : Out) : (s.emit o).ev = s.ev := rfl
@[simp] theorem State.emit_mem (s : State) (o : Out) : (s.emit o).mem = s.mem := rfl
@[simp] theorem State.emit_hostMem (s : State) (o : Out) : (s.emit o).hostMem = s.hostMem := rfl
@[simp] theorem State.emit_cores (s : State) (o : Out) : (s.emit o).cores = s.cores := rfl
@[simp] theorem State.emit_ctxs (s : State) (o : Out) : (s.emit o).ctxs = s.ctxs := rfl
@[simp] theorem State.emit_rings (s : State) (o : Out) : (s.emit o).rings = s.rings := rfl
@[simp] theorem State.emit_cmds (s : State) (o : Out) : (s.emit o).cmds = s.cmds := rfl
@[simp] theorem State.emit_cmdNo (s : State) (o : Out) : (s.emit o).cmdNo = s.cmdNo := rfl
@[simp] theorem State.emit_colls (s : State) (o : Out) : (s.emit o).colls = s.colls := rfl
@[simp] theorem State.emit_closedLedgers (s : State) (o : Out) : (s.emit o).closedLedgers = s.closedLedgers := rfl
@[simp] theorem State.emit_fabric (s : State) (o : Out) : (s.emit o).fabric = s.fabric := rfl
@[simp] theorem State.emit_host (s : State) (o : Out) : (s.emit o).host = s.host := rfl
@[simp] theorem State.emit_sec (s : State) (o : Out) : (s.emit o).sec = s.sec := rfl
@[simp] theorem State.emit_factory (s : State) (o : Out) : (s.emit o).factory = s.factory := rfl
@[simp] theorem State.emit_fw (s : State) (o : Out) : (s.emit o).fw = s.fw := rfl
@[simp] theorem State.emit_units (s : State) (o : Out) : (s.emit o).units = s.units := rfl
@[simp] theorem State.emit_board (s : State) (o : Out) : (s.emit o).board = s.board := rfl
@[simp] theorem State.emit_regs (s : State) (o : Out) : (s.emit o).regs = s.regs := rfl
@[simp] theorem State.emit_counters (s : State) (o : Out) : (s.emit o).counters = s.counters := rfl
@[simp] theorem State.emit_ctxCounters (s : State) (o : Out) : (s.emit o).ctxCounters = s.ctxCounters := rfl
@[simp] theorem State.emit_fresh (s : State) (o : Out) : (s.emit o).fresh = s.fresh := rfl
@[simp] theorem State.emit_out (s : State) (o : Out) : (s.emit o).out = s.out ++ [o] := rfl
@[simp] theorem State.emit_pending (s : State) (o : Out) : (s.emit o).pending = s.pending := rfl

@[simp] theorem State.settle_now (t s : State) : (t.settle s).now = s.now := rfl
@[simp] theorem State.settle_turn (t s : State) : (t.settle s).turn = s.turn := rfl
@[simp] theorem State.settle_params (t s : State) : (t.settle s).params = t.params := rfl
@[simp] theorem State.settle_net (t s : State) : (t.settle s).net = t.net := rfl
@[simp] theorem State.settle_sched (t s : State) : (t.settle s).sched = t.sched := rfl
@[simp] theorem State.settle_gov (t s : State) : (t.settle s).gov = t.gov := rfl
@[simp] theorem State.settle_ev (t s : State) : (t.settle s).ev = t.ev := rfl
@[simp] theorem State.settle_mem (t s : State) : (t.settle s).mem = t.mem := rfl
@[simp] theorem State.settle_hostMem (t s : State) : (t.settle s).hostMem = t.hostMem := rfl
@[simp] theorem State.settle_cores (t s : State) : (t.settle s).cores = t.cores := rfl
@[simp] theorem State.settle_ctxs (t s : State) : (t.settle s).ctxs = t.ctxs := rfl
@[simp] theorem State.settle_rings (t s : State) : (t.settle s).rings = t.rings := rfl
@[simp] theorem State.settle_cmds (t s : State) : (t.settle s).cmds = t.cmds := rfl
@[simp] theorem State.settle_cmdNo (t s : State) : (t.settle s).cmdNo = t.cmdNo := rfl
@[simp] theorem State.settle_colls (t s : State) : (t.settle s).colls = t.colls := rfl
@[simp] theorem State.settle_closedLedgers (t s : State) : (t.settle s).closedLedgers = t.closedLedgers := rfl
@[simp] theorem State.settle_fabric (t s : State) : (t.settle s).fabric = t.fabric := rfl
@[simp] theorem State.settle_host (t s : State) : (t.settle s).host = t.host := rfl
@[simp] theorem State.settle_sec (t s : State) : (t.settle s).sec = t.sec := rfl
@[simp] theorem State.settle_factory (t s : State) : (t.settle s).factory = s.factory := rfl
@[simp] theorem State.settle_fw (t s : State) : (t.settle s).fw = t.fw := rfl
@[simp] theorem State.settle_units (t s : State) : (t.settle s).units = t.units := rfl
@[simp] theorem State.settle_board (t s : State) : (t.settle s).board = t.board := rfl
@[simp] theorem State.settle_regs (t s : State) : (t.settle s).regs = t.regs := rfl
@[simp] theorem State.settle_counters (t s : State) : (t.settle s).counters = t.counters := rfl
@[simp] theorem State.settle_ctxCounters (t s : State) : (t.settle s).ctxCounters = t.ctxCounters := rfl
@[simp] theorem State.settle_fresh (t s : State) : (t.settle s).fresh = t.fresh := rfl
@[simp] theorem State.settle_out (t s : State) : (t.settle s).out = t.out := rfl
@[simp] theorem State.settle_pending (t s : State) : (t.settle s).pending = s.pending := rfl

@[simp] theorem State.sameTurn_now (t s : State) : (t.sameTurn s).now = t.now := rfl
@[simp] theorem State.sameTurn_turn (t s : State) : (t.sameTurn s).turn = s.turn := rfl
@[simp] theorem State.sameTurn_params (t s : State) : (t.sameTurn s).params = t.params := rfl
@[simp] theorem State.sameTurn_net (t s : State) : (t.sameTurn s).net = t.net := rfl
@[simp] theorem State.sameTurn_sched (t s : State) : (t.sameTurn s).sched = t.sched := rfl
@[simp] theorem State.sameTurn_gov (t s : State) : (t.sameTurn s).gov = t.gov := rfl
@[simp] theorem State.sameTurn_ev (t s : State) : (t.sameTurn s).ev = t.ev := rfl
@[simp] theorem State.sameTurn_mem (t s : State) : (t.sameTurn s).mem = t.mem := rfl
@[simp] theorem State.sameTurn_hostMem (t s : State) : (t.sameTurn s).hostMem = t.hostMem := rfl
@[simp] theorem State.sameTurn_cores (t s : State) : (t.sameTurn s).cores = t.cores := rfl
@[simp] theorem State.sameTurn_ctxs (t s : State) : (t.sameTurn s).ctxs = t.ctxs := rfl
@[simp] theorem State.sameTurn_rings (t s : State) : (t.sameTurn s).rings = t.rings := rfl
@[simp] theorem State.sameTurn_cmds (t s : State) : (t.sameTurn s).cmds = t.cmds := rfl
@[simp] theorem State.sameTurn_cmdNo (t s : State) : (t.sameTurn s).cmdNo = t.cmdNo := rfl
@[simp] theorem State.sameTurn_colls (t s : State) : (t.sameTurn s).colls = t.colls := rfl
@[simp] theorem State.sameTurn_closedLedgers (t s : State) : (t.sameTurn s).closedLedgers = t.closedLedgers := rfl
@[simp] theorem State.sameTurn_fabric (t s : State) : (t.sameTurn s).fabric = t.fabric := rfl
@[simp] theorem State.sameTurn_host (t s : State) : (t.sameTurn s).host = t.host := rfl
@[simp] theorem State.sameTurn_sec (t s : State) : (t.sameTurn s).sec = t.sec := rfl
@[simp] theorem State.sameTurn_factory (t s : State) : (t.sameTurn s).factory = t.factory := rfl
@[simp] theorem State.sameTurn_fw (t s : State) : (t.sameTurn s).fw = t.fw := rfl
@[simp] theorem State.sameTurn_units (t s : State) : (t.sameTurn s).units = t.units := rfl
@[simp] theorem State.sameTurn_board (t s : State) : (t.sameTurn s).board = t.board := rfl
@[simp] theorem State.sameTurn_regs (t s : State) : (t.sameTurn s).regs = t.regs := rfl
@[simp] theorem State.sameTurn_counters (t s : State) : (t.sameTurn s).counters = t.counters := rfl
@[simp] theorem State.sameTurn_ctxCounters (t s : State) : (t.sameTurn s).ctxCounters = t.ctxCounters := rfl
@[simp] theorem State.sameTurn_fresh (t s : State) : (t.sameTurn s).fresh = t.fresh := rfl
@[simp] theorem State.sameTurn_out (t s : State) : (t.sameTurn s).out = t.out := rfl
@[simp] theorem State.sameTurn_pending (t s : State) : (t.sameTurn s).pending = t.pending := rfl

@[simp] theorem State.onlyHold_now (t s : State) : (t.onlyHold s).now = t.now := rfl
@[simp] theorem State.onlyHold_turn (t s : State) : (t.onlyHold s).turn = if t.turn.st == .holdover && s.turn.st == .locked then s.turn.hold else s.turn := rfl
@[simp] theorem State.onlyHold_params (t s : State) : (t.onlyHold s).params = t.params := rfl
@[simp] theorem State.onlyHold_net (t s : State) : (t.onlyHold s).net = t.net := rfl
@[simp] theorem State.onlyHold_sched (t s : State) : (t.onlyHold s).sched = t.sched := rfl
@[simp] theorem State.onlyHold_gov (t s : State) : (t.onlyHold s).gov = t.gov := rfl
@[simp] theorem State.onlyHold_ev (t s : State) : (t.onlyHold s).ev = t.ev := rfl
@[simp] theorem State.onlyHold_mem (t s : State) : (t.onlyHold s).mem = t.mem := rfl
@[simp] theorem State.onlyHold_hostMem (t s : State) : (t.onlyHold s).hostMem = t.hostMem := rfl
@[simp] theorem State.onlyHold_cores (t s : State) : (t.onlyHold s).cores = t.cores := rfl
@[simp] theorem State.onlyHold_ctxs (t s : State) : (t.onlyHold s).ctxs = t.ctxs := rfl
@[simp] theorem State.onlyHold_rings (t s : State) : (t.onlyHold s).rings = t.rings := rfl
@[simp] theorem State.onlyHold_cmds (t s : State) : (t.onlyHold s).cmds = t.cmds := rfl
@[simp] theorem State.onlyHold_cmdNo (t s : State) : (t.onlyHold s).cmdNo = t.cmdNo := rfl
@[simp] theorem State.onlyHold_colls (t s : State) : (t.onlyHold s).colls = t.colls := rfl
@[simp] theorem State.onlyHold_closedLedgers (t s : State) : (t.onlyHold s).closedLedgers = t.closedLedgers := rfl
@[simp] theorem State.onlyHold_fabric (t s : State) : (t.onlyHold s).fabric = t.fabric := rfl
@[simp] theorem State.onlyHold_host (t s : State) : (t.onlyHold s).host = t.host := rfl
@[simp] theorem State.onlyHold_sec (t s : State) : (t.onlyHold s).sec = t.sec := rfl
@[simp] theorem State.onlyHold_factory (t s : State) : (t.onlyHold s).factory = t.factory := rfl
@[simp] theorem State.onlyHold_fw (t s : State) : (t.onlyHold s).fw = t.fw := rfl
@[simp] theorem State.onlyHold_units (t s : State) : (t.onlyHold s).units = t.units := rfl
@[simp] theorem State.onlyHold_board (t s : State) : (t.onlyHold s).board = t.board := rfl
@[simp] theorem State.onlyHold_regs (t s : State) : (t.onlyHold s).regs = t.regs := rfl
@[simp] theorem State.onlyHold_counters (t s : State) : (t.onlyHold s).counters = t.counters := rfl
@[simp] theorem State.onlyHold_ctxCounters (t s : State) : (t.onlyHold s).ctxCounters = t.ctxCounters := rfl
@[simp] theorem State.onlyHold_fresh (t s : State) : (t.onlyHold s).fresh = t.fresh := rfl
@[simp] theorem State.onlyHold_out (t s : State) : (t.onlyHold s).out = t.out := rfl
@[simp] theorem State.onlyHold_pending (t s : State) : (t.onlyHold s).pending = t.pending := rfl

@[simp] theorem State.modCtx_now (s : State) (x : Nat) (f : Ctx → Ctx) : (s.modCtx x f).now = s.now := rfl
@[simp] theorem State.modCtx_turn (s : State) (x : Nat) (f : Ctx → Ctx) : (s.modCtx x f).turn = s.turn := rfl
@[simp] theorem State.modCtx_params (s : State) (x : Nat) (f : Ctx → Ctx) : (s.modCtx x f).params = s.params := rfl
@[simp] theorem State.modCtx_net (s : State) (x : Nat) (f : Ctx → Ctx) : (s.modCtx x f).net = s.net := rfl
@[simp] theorem State.modCtx_sched (s : State) (x : Nat) (f : Ctx → Ctx) : (s.modCtx x f).sched = s.sched := rfl
@[simp] theorem State.modCtx_gov (s : State) (x : Nat) (f : Ctx → Ctx) : (s.modCtx x f).gov = s.gov := rfl
@[simp] theorem State.modCtx_ev (s : State) (x : Nat) (f : Ctx → Ctx) : (s.modCtx x f).ev = s.ev := rfl
@[simp] theorem State.modCtx_mem (s : State) (x : Nat) (f : Ctx → Ctx) : (s.modCtx x f).mem = s.mem := rfl
@[simp] theorem State.modCtx_hostMem (s : State) (x : Nat) (f : Ctx → Ctx) : (s.modCtx x f).hostMem = s.hostMem := rfl
@[simp] theorem State.modCtx_cores (s : State) (x : Nat) (f : Ctx → Ctx) : (s.modCtx x f).cores = s.cores := rfl
@[simp] theorem State.modCtx_ctxs (s : State) (x : Nat) (f : Ctx → Ctx) : (s.modCtx x f).ctxs = Tab.upd s.ctxs {} x f := rfl
@[simp] theorem State.modCtx_rings (s : State) (x : Nat) (f : Ctx → Ctx) : (s.modCtx x f).rings = s.rings := rfl
@[simp] theorem State.modCtx_cmds (s : State) (x : Nat) (f : Ctx → Ctx) : (s.modCtx x f).cmds = s.cmds := rfl
@[simp] theorem State.modCtx_cmdNo (s : State) (x : Nat) (f : Ctx → Ctx) : (s.modCtx x f).cmdNo = s.cmdNo := rfl
@[simp] theorem State.modCtx_colls (s : State) (x : Nat) (f : Ctx → Ctx) : (s.modCtx x f).colls = s.colls := rfl
@[simp] theorem State.modCtx_closedLedgers (s : State) (x : Nat) (f : Ctx → Ctx) : (s.modCtx x f).closedLedgers = s.closedLedgers := rfl
@[simp] theorem State.modCtx_fabric (s : State) (x : Nat) (f : Ctx → Ctx) : (s.modCtx x f).fabric = s.fabric := rfl
@[simp] theorem State.modCtx_host (s : State) (x : Nat) (f : Ctx → Ctx) : (s.modCtx x f).host = s.host := rfl
@[simp] theorem State.modCtx_sec (s : State) (x : Nat) (f : Ctx → Ctx) : (s.modCtx x f).sec = s.sec := rfl
@[simp] theorem State.modCtx_factory (s : State) (x : Nat) (f : Ctx → Ctx) : (s.modCtx x f).factory = s.factory := rfl
@[simp] theorem State.modCtx_fw (s : State) (x : Nat) (f : Ctx → Ctx) : (s.modCtx x f).fw = s.fw := rfl
@[simp] theorem State.modCtx_units (s : State) (x : Nat) (f : Ctx → Ctx) : (s.modCtx x f).units = s.units := rfl
@[simp] theorem State.modCtx_board (s : State) (x : Nat) (f : Ctx → Ctx) : (s.modCtx x f).board = s.board := rfl
@[simp] theorem State.modCtx_regs (s : State) (x : Nat) (f : Ctx → Ctx) : (s.modCtx x f).regs = s.regs := rfl
@[simp] theorem State.modCtx_counters (s : State) (x : Nat) (f : Ctx → Ctx) : (s.modCtx x f).counters = s.counters := rfl
@[simp] theorem State.modCtx_ctxCounters (s : State) (x : Nat) (f : Ctx → Ctx) : (s.modCtx x f).ctxCounters = s.ctxCounters := rfl
@[simp] theorem State.modCtx_fresh (s : State) (x : Nat) (f : Ctx → Ctx) : (s.modCtx x f).fresh = s.fresh := rfl
@[simp] theorem State.modCtx_out (s : State) (x : Nat) (f : Ctx → Ctx) : (s.modCtx x f).out = s.out := rfl
@[simp] theorem State.modCtx_pending (s : State) (x : Nat) (f : Ctx → Ctx) : (s.modCtx x f).pending = s.pending := rfl

@[simp] theorem State.modCore_now (s : State) (c : Nat) (f : CoreSt → CoreSt) : (s.modCore c f).now = s.now := rfl
@[simp] theorem State.modCore_turn (s : State) (c : Nat) (f : CoreSt → CoreSt) : (s.modCore c f).turn = s.turn := rfl
@[simp] theorem State.modCore_params (s : State) (c : Nat) (f : CoreSt → CoreSt) : (s.modCore c f).params = s.params := rfl
@[simp] theorem State.modCore_net (s : State) (c : Nat) (f : CoreSt → CoreSt) : (s.modCore c f).net = s.net := rfl
@[simp] theorem State.modCore_sched (s : State) (c : Nat) (f : CoreSt → CoreSt) : (s.modCore c f).sched = s.sched := rfl
@[simp] theorem State.modCore_gov (s : State) (c : Nat) (f : CoreSt → CoreSt) : (s.modCore c f).gov = s.gov := rfl
@[simp] theorem State.modCore_ev (s : State) (c : Nat) (f : CoreSt → CoreSt) : (s.modCore c f).ev = s.ev := rfl
@[simp] theorem State.modCore_mem (s : State) (c : Nat) (f : CoreSt → CoreSt) : (s.modCore c f).mem = s.mem := rfl
@[simp] theorem State.modCore_hostMem (s : State) (c : Nat) (f : CoreSt → CoreSt) : (s.modCore c f).hostMem = s.hostMem := rfl
@[simp] theorem State.modCore_cores (s : State) (c : Nat) (f : CoreSt → CoreSt) : (s.modCore c f).cores = Tab.upd s.cores {} c f := rfl
@[simp] theorem State.modCore_ctxs (s : State) (c : Nat) (f : CoreSt → CoreSt) : (s.modCore c f).ctxs = s.ctxs := rfl
@[simp] theorem State.modCore_rings (s : State) (c : Nat) (f : CoreSt → CoreSt) : (s.modCore c f).rings = s.rings := rfl
@[simp] theorem State.modCore_cmds (s : State) (c : Nat) (f : CoreSt → CoreSt) : (s.modCore c f).cmds = s.cmds := rfl
@[simp] theorem State.modCore_cmdNo (s : State) (c : Nat) (f : CoreSt → CoreSt) : (s.modCore c f).cmdNo = s.cmdNo := rfl
@[simp] theorem State.modCore_colls (s : State) (c : Nat) (f : CoreSt → CoreSt) : (s.modCore c f).colls = s.colls := rfl
@[simp] theorem State.modCore_closedLedgers (s : State) (c : Nat) (f : CoreSt → CoreSt) : (s.modCore c f).closedLedgers = s.closedLedgers := rfl
@[simp] theorem State.modCore_fabric (s : State) (c : Nat) (f : CoreSt → CoreSt) : (s.modCore c f).fabric = s.fabric := rfl
@[simp] theorem State.modCore_host (s : State) (c : Nat) (f : CoreSt → CoreSt) : (s.modCore c f).host = s.host := rfl
@[simp] theorem State.modCore_sec (s : State) (c : Nat) (f : CoreSt → CoreSt) : (s.modCore c f).sec = s.sec := rfl
@[simp] theorem State.modCore_factory (s : State) (c : Nat) (f : CoreSt → CoreSt) : (s.modCore c f).factory = s.factory := rfl
@[simp] theorem State.modCore_fw (s : State) (c : Nat) (f : CoreSt → CoreSt) : (s.modCore c f).fw = s.fw := rfl
@[simp] theorem State.modCore_units (s : State) (c : Nat) (f : CoreSt → CoreSt) : (s.modCore c f).units = s.units := rfl
@[simp] theorem State.modCore_board (s : State) (c : Nat) (f : CoreSt → CoreSt) : (s.modCore c f).board = s.board := rfl
@[simp] theorem State.modCore_regs (s : State) (c : Nat) (f : CoreSt → CoreSt) : (s.modCore c f).regs = s.regs := rfl
@[simp] theorem State.modCore_counters (s : State) (c : Nat) (f : CoreSt → CoreSt) : (s.modCore c f).counters = s.counters := rfl
@[simp] theorem State.modCore_ctxCounters (s : State) (c : Nat) (f : CoreSt → CoreSt) : (s.modCore c f).ctxCounters = s.ctxCounters := rfl
@[simp] theorem State.modCore_fresh (s : State) (c : Nat) (f : CoreSt → CoreSt) : (s.modCore c f).fresh = s.fresh := rfl
@[simp] theorem State.modCore_out (s : State) (c : Nat) (f : CoreSt → CoreSt) : (s.modCore c f).out = s.out := rfl
@[simp] theorem State.modCore_pending (s : State) (c : Nat) (f : CoreSt → CoreSt) : (s.modCore c f).pending = s.pending := rfl

@[simp] theorem State.modPort_now (s : State) (p : Nat) (f : Port → Port) : (s.modPort p f).now = s.now := rfl
@[simp] theorem State.modPort_turn (s : State) (p : Nat) (f : Port → Port) : (s.modPort p f).turn = s.turn := rfl
@[simp] theorem State.modPort_params (s : State) (p : Nat) (f : Port → Port) : (s.modPort p f).params = s.params := rfl
@[simp] theorem State.modPort_net (s : State) (p : Nat) (f : Port → Port) : (s.modPort p f).net = s.net := rfl
@[simp] theorem State.modPort_sched (s : State) (p : Nat) (f : Port → Port) : (s.modPort p f).sched = s.sched := rfl
@[simp] theorem State.modPort_gov (s : State) (p : Nat) (f : Port → Port) : (s.modPort p f).gov = s.gov := rfl
@[simp] theorem State.modPort_ev (s : State) (p : Nat) (f : Port → Port) : (s.modPort p f).ev = s.ev := rfl
@[simp] theorem State.modPort_mem (s : State) (p : Nat) (f : Port → Port) : (s.modPort p f).mem = s.mem := rfl
@[simp] theorem State.modPort_hostMem (s : State) (p : Nat) (f : Port → Port) : (s.modPort p f).hostMem = s.hostMem := rfl
@[simp] theorem State.modPort_cores (s : State) (p : Nat) (f : Port → Port) : (s.modPort p f).cores = s.cores := rfl
@[simp] theorem State.modPort_ctxs (s : State) (p : Nat) (f : Port → Port) : (s.modPort p f).ctxs = s.ctxs := rfl
@[simp] theorem State.modPort_rings (s : State) (p : Nat) (f : Port → Port) : (s.modPort p f).rings = s.rings := rfl
@[simp] theorem State.modPort_cmds (s : State) (p : Nat) (f : Port → Port) : (s.modPort p f).cmds = s.cmds := rfl
@[simp] theorem State.modPort_cmdNo (s : State) (p : Nat) (f : Port → Port) : (s.modPort p f).cmdNo = s.cmdNo := rfl
@[simp] theorem State.modPort_colls (s : State) (p : Nat) (f : Port → Port) : (s.modPort p f).colls = s.colls := rfl
@[simp] theorem State.modPort_closedLedgers (s : State) (p : Nat) (f : Port → Port) : (s.modPort p f).closedLedgers = s.closedLedgers := rfl
@[simp] theorem State.modPort_fabric (s : State) (p : Nat) (f : Port → Port) : (s.modPort p f).fabric = { s.fabric with ports := Tab.upd s.fabric.ports {} p f } := rfl
@[simp] theorem State.modPort_host (s : State) (p : Nat) (f : Port → Port) : (s.modPort p f).host = s.host := rfl
@[simp] theorem State.modPort_sec (s : State) (p : Nat) (f : Port → Port) : (s.modPort p f).sec = s.sec := rfl
@[simp] theorem State.modPort_factory (s : State) (p : Nat) (f : Port → Port) : (s.modPort p f).factory = s.factory := rfl
@[simp] theorem State.modPort_fw (s : State) (p : Nat) (f : Port → Port) : (s.modPort p f).fw = s.fw := rfl
@[simp] theorem State.modPort_units (s : State) (p : Nat) (f : Port → Port) : (s.modPort p f).units = s.units := rfl
@[simp] theorem State.modPort_board (s : State) (p : Nat) (f : Port → Port) : (s.modPort p f).board = s.board := rfl
@[simp] theorem State.modPort_regs (s : State) (p : Nat) (f : Port → Port) : (s.modPort p f).regs = s.regs := rfl
@[simp] theorem State.modPort_counters (s : State) (p : Nat) (f : Port → Port) : (s.modPort p f).counters = s.counters := rfl
@[simp] theorem State.modPort_ctxCounters (s : State) (p : Nat) (f : Port → Port) : (s.modPort p f).ctxCounters = s.ctxCounters := rfl
@[simp] theorem State.modPort_fresh (s : State) (p : Nat) (f : Port → Port) : (s.modPort p f).fresh = s.fresh := rfl
@[simp] theorem State.modPort_out (s : State) (p : Nat) (f : Port → Port) : (s.modPort p f).out = s.out := rfl
@[simp] theorem State.modPort_pending (s : State) (p : Nat) (f : Port → Port) : (s.modPort p f).pending = s.pending := rfl

@[simp] theorem State.modTurn_now (s : State) (f : TurnUnit → TurnUnit) : (s.modTurn f).now = s.now := rfl
@[simp] theorem State.modTurn_turn (s : State) (f : TurnUnit → TurnUnit) : (s.modTurn f).turn = f s.turn := rfl
@[simp] theorem State.modTurn_params (s : State) (f : TurnUnit → TurnUnit) : (s.modTurn f).params = s.params := rfl
@[simp] theorem State.modTurn_net (s : State) (f : TurnUnit → TurnUnit) : (s.modTurn f).net = s.net := rfl
@[simp] theorem State.modTurn_sched (s : State) (f : TurnUnit → TurnUnit) : (s.modTurn f).sched = s.sched := rfl
@[simp] theorem State.modTurn_gov (s : State) (f : TurnUnit → TurnUnit) : (s.modTurn f).gov = s.gov := rfl
@[simp] theorem State.modTurn_ev (s : State) (f : TurnUnit → TurnUnit) : (s.modTurn f).ev = s.ev := rfl
@[simp] theorem State.modTurn_mem (s : State) (f : TurnUnit → TurnUnit) : (s.modTurn f).mem = s.mem := rfl
@[simp] theorem State.modTurn_hostMem (s : State) (f : TurnUnit → TurnUnit) : (s.modTurn f).hostMem = s.hostMem := rfl
@[simp] theorem State.modTurn_cores (s : State) (f : TurnUnit → TurnUnit) : (s.modTurn f).cores = s.cores := rfl
@[simp] theorem State.modTurn_ctxs (s : State) (f : TurnUnit → TurnUnit) : (s.modTurn f).ctxs = s.ctxs := rfl
@[simp] theorem State.modTurn_rings (s : State) (f : TurnUnit → TurnUnit) : (s.modTurn f).rings = s.rings := rfl
@[simp] theorem State.modTurn_cmds (s : State) (f : TurnUnit → TurnUnit) : (s.modTurn f).cmds = s.cmds := rfl
@[simp] theorem State.modTurn_cmdNo (s : State) (f : TurnUnit → TurnUnit) : (s.modTurn f).cmdNo = s.cmdNo := rfl
@[simp] theorem State.modTurn_colls (s : State) (f : TurnUnit → TurnUnit) : (s.modTurn f).colls = s.colls := rfl
@[simp] theorem State.modTurn_closedLedgers (s : State) (f : TurnUnit → TurnUnit) : (s.modTurn f).closedLedgers = s.closedLedgers := rfl
@[simp] theorem State.modTurn_fabric (s : State) (f : TurnUnit → TurnUnit) : (s.modTurn f).fabric = s.fabric := rfl
@[simp] theorem State.modTurn_host (s : State) (f : TurnUnit → TurnUnit) : (s.modTurn f).host = s.host := rfl
@[simp] theorem State.modTurn_sec (s : State) (f : TurnUnit → TurnUnit) : (s.modTurn f).sec = s.sec := rfl
@[simp] theorem State.modTurn_factory (s : State) (f : TurnUnit → TurnUnit) : (s.modTurn f).factory = s.factory := rfl
@[simp] theorem State.modTurn_fw (s : State) (f : TurnUnit → TurnUnit) : (s.modTurn f).fw = s.fw := rfl
@[simp] theorem State.modTurn_units (s : State) (f : TurnUnit → TurnUnit) : (s.modTurn f).units = s.units := rfl
@[simp] theorem State.modTurn_board (s : State) (f : TurnUnit → TurnUnit) : (s.modTurn f).board = s.board := rfl
@[simp] theorem State.modTurn_regs (s : State) (f : TurnUnit → TurnUnit) : (s.modTurn f).regs = s.regs := rfl
@[simp] theorem State.modTurn_counters (s : State) (f : TurnUnit → TurnUnit) : (s.modTurn f).counters = s.counters := rfl
@[simp] theorem State.modTurn_ctxCounters (s : State) (f : TurnUnit → TurnUnit) : (s.modTurn f).ctxCounters = s.ctxCounters := rfl
@[simp] theorem State.modTurn_fresh (s : State) (f : TurnUnit → TurnUnit) : (s.modTurn f).fresh = s.fresh := rfl
@[simp] theorem State.modTurn_out (s : State) (f : TurnUnit → TurnUnit) : (s.modTurn f).out = s.out := rfl
@[simp] theorem State.modTurn_pending (s : State) (f : TurnUnit → TurnUnit) : (s.modTurn f).pending = s.pending := rfl

@[simp] theorem State.modGov_now (s : State) (f : Governor → Governor) : (s.modGov f).now = s.now := rfl
@[simp] theorem State.modGov_turn (s : State) (f : Governor → Governor) : (s.modGov f).turn = s.turn := rfl
@[simp] theorem State.modGov_params (s : State) (f : Governor → Governor) : (s.modGov f).params = s.params := rfl
@[simp] theorem State.modGov_net (s : State) (f : Governor → Governor) : (s.modGov f).net = s.net := rfl
@[simp] theorem State.modGov_sched (s : State) (f : Governor → Governor) : (s.modGov f).sched = s.sched := rfl
@[simp] theorem State.modGov_gov (s : State) (f : Governor → Governor) : (s.modGov f).gov = f s.gov := rfl
@[simp] theorem State.modGov_ev (s : State) (f : Governor → Governor) : (s.modGov f).ev = s.ev := rfl
@[simp] theorem State.modGov_mem (s : State) (f : Governor → Governor) : (s.modGov f).mem = s.mem := rfl
@[simp] theorem State.modGov_hostMem (s : State) (f : Governor → Governor) : (s.modGov f).hostMem = s.hostMem := rfl
@[simp] theorem State.modGov_cores (s : State) (f : Governor → Governor) : (s.modGov f).cores = s.cores := rfl
@[simp] theorem State.modGov_ctxs (s : State) (f : Governor → Governor) : (s.modGov f).ctxs = s.ctxs := rfl
@[simp] theorem State.modGov_rings (s : State) (f : Governor → Governor) : (s.modGov f).rings = s.rings := rfl
@[simp] theorem State.modGov_cmds (s : State) (f : Governor → Governor) : (s.modGov f).cmds = s.cmds := rfl
@[simp] theorem State.modGov_cmdNo (s : State) (f : Governor → Governor) : (s.modGov f).cmdNo = s.cmdNo := rfl
@[simp] theorem State.modGov_colls (s : State) (f : Governor → Governor) : (s.modGov f).colls = s.colls := rfl
@[simp] theorem State.modGov_closedLedgers (s : State) (f : Governor → Governor) : (s.modGov f).closedLedgers = s.closedLedgers := rfl
@[simp] theorem State.modGov_fabric (s : State) (f : Governor → Governor) : (s.modGov f).fabric = s.fabric := rfl
@[simp] theorem State.modGov_host (s : State) (f : Governor → Governor) : (s.modGov f).host = s.host := rfl
@[simp] theorem State.modGov_sec (s : State) (f : Governor → Governor) : (s.modGov f).sec = s.sec := rfl
@[simp] theorem State.modGov_factory (s : State) (f : Governor → Governor) : (s.modGov f).factory = s.factory := rfl
@[simp] theorem State.modGov_fw (s : State) (f : Governor → Governor) : (s.modGov f).fw = s.fw := rfl
@[simp] theorem State.modGov_units (s : State) (f : Governor → Governor) : (s.modGov f).units = s.units := rfl
@[simp] theorem State.modGov_board (s : State) (f : Governor → Governor) : (s.modGov f).board = s.board := rfl
@[simp] theorem State.modGov_regs (s : State) (f : Governor → Governor) : (s.modGov f).regs = s.regs := rfl
@[simp] theorem State.modGov_counters (s : State) (f : Governor → Governor) : (s.modGov f).counters = s.counters := rfl
@[simp] theorem State.modGov_ctxCounters (s : State) (f : Governor → Governor) : (s.modGov f).ctxCounters = s.ctxCounters := rfl
@[simp] theorem State.modGov_fresh (s : State) (f : Governor → Governor) : (s.modGov f).fresh = s.fresh := rfl
@[simp] theorem State.modGov_out (s : State) (f : Governor → Governor) : (s.modGov f).out = s.out := rfl
@[simp] theorem State.modGov_pending (s : State) (f : Governor → Governor) : (s.modGov f).pending = s.pending := rfl

@[simp] theorem State.modQuad_now (s : State) (q : Nat) (f : QuadGov → QuadGov) : (s.modQuad q f).now = s.now := rfl
@[simp] theorem State.modQuad_turn (s : State) (q : Nat) (f : QuadGov → QuadGov) : (s.modQuad q f).turn = s.turn := rfl
@[simp] theorem State.modQuad_params (s : State) (q : Nat) (f : QuadGov → QuadGov) : (s.modQuad q f).params = s.params := rfl
@[simp] theorem State.modQuad_net (s : State) (q : Nat) (f : QuadGov → QuadGov) : (s.modQuad q f).net = s.net := rfl
@[simp] theorem State.modQuad_sched (s : State) (q : Nat) (f : QuadGov → QuadGov) : (s.modQuad q f).sched = s.sched := rfl
@[simp] theorem State.modQuad_gov (s : State) (q : Nat) (f : QuadGov → QuadGov) : (s.modQuad q f).gov = { s.gov with quads := Tab.upd s.gov.quads {} q f } := rfl
@[simp] theorem State.modQuad_ev (s : State) (q : Nat) (f : QuadGov → QuadGov) : (s.modQuad q f).ev = s.ev := rfl
@[simp] theorem State.modQuad_mem (s : State) (q : Nat) (f : QuadGov → QuadGov) : (s.modQuad q f).mem = s.mem := rfl
@[simp] theorem State.modQuad_hostMem (s : State) (q : Nat) (f : QuadGov → QuadGov) : (s.modQuad q f).hostMem = s.hostMem := rfl
@[simp] theorem State.modQuad_cores (s : State) (q : Nat) (f : QuadGov → QuadGov) : (s.modQuad q f).cores = s.cores := rfl
@[simp] theorem State.modQuad_ctxs (s : State) (q : Nat) (f : QuadGov → QuadGov) : (s.modQuad q f).ctxs = s.ctxs := rfl
@[simp] theorem State.modQuad_rings (s : State) (q : Nat) (f : QuadGov → QuadGov) : (s.modQuad q f).rings = s.rings := rfl
@[simp] theorem State.modQuad_cmds (s : State) (q : Nat) (f : QuadGov → QuadGov) : (s.modQuad q f).cmds = s.cmds := rfl
@[simp] theorem State.modQuad_cmdNo (s : State) (q : Nat) (f : QuadGov → QuadGov) : (s.modQuad q f).cmdNo = s.cmdNo := rfl
@[simp] theorem State.modQuad_colls (s : State) (q : Nat) (f : QuadGov → QuadGov) : (s.modQuad q f).colls = s.colls := rfl
@[simp] theorem State.modQuad_closedLedgers (s : State) (q : Nat) (f : QuadGov → QuadGov) : (s.modQuad q f).closedLedgers = s.closedLedgers := rfl
@[simp] theorem State.modQuad_fabric (s : State) (q : Nat) (f : QuadGov → QuadGov) : (s.modQuad q f).fabric = s.fabric := rfl
@[simp] theorem State.modQuad_host (s : State) (q : Nat) (f : QuadGov → QuadGov) : (s.modQuad q f).host = s.host := rfl
@[simp] theorem State.modQuad_sec (s : State) (q : Nat) (f : QuadGov → QuadGov) : (s.modQuad q f).sec = s.sec := rfl
@[simp] theorem State.modQuad_factory (s : State) (q : Nat) (f : QuadGov → QuadGov) : (s.modQuad q f).factory = s.factory := rfl
@[simp] theorem State.modQuad_fw (s : State) (q : Nat) (f : QuadGov → QuadGov) : (s.modQuad q f).fw = s.fw := rfl
@[simp] theorem State.modQuad_units (s : State) (q : Nat) (f : QuadGov → QuadGov) : (s.modQuad q f).units = s.units := rfl
@[simp] theorem State.modQuad_board (s : State) (q : Nat) (f : QuadGov → QuadGov) : (s.modQuad q f).board = s.board := rfl
@[simp] theorem State.modQuad_regs (s : State) (q : Nat) (f : QuadGov → QuadGov) : (s.modQuad q f).regs = s.regs := rfl
@[simp] theorem State.modQuad_counters (s : State) (q : Nat) (f : QuadGov → QuadGov) : (s.modQuad q f).counters = s.counters := rfl
@[simp] theorem State.modQuad_ctxCounters (s : State) (q : Nat) (f : QuadGov → QuadGov) : (s.modQuad q f).ctxCounters = s.ctxCounters := rfl
@[simp] theorem State.modQuad_fresh (s : State) (q : Nat) (f : QuadGov → QuadGov) : (s.modQuad q f).fresh = s.fresh := rfl
@[simp] theorem State.modQuad_out (s : State) (q : Nat) (f : QuadGov → QuadGov) : (s.modQuad q f).out = s.out := rfl
@[simp] theorem State.modQuad_pending (s : State) (q : Nat) (f : QuadGov → QuadGov) : (s.modQuad q f).pending = s.pending := rfl

@[simp] theorem State.modRing_now (s : State) (r : RingId) (f : Ring → Ring) : (s.modRing r f).now = s.now := rfl
@[simp] theorem State.modRing_turn (s : State) (r : RingId) (f : Ring → Ring) : (s.modRing r f).turn = s.turn := rfl
@[simp] theorem State.modRing_params (s : State) (r : RingId) (f : Ring → Ring) : (s.modRing r f).params = s.params := rfl
@[simp] theorem State.modRing_net (s : State) (r : RingId) (f : Ring → Ring) : (s.modRing r f).net = s.net := rfl
@[simp] theorem State.modRing_sched (s : State) (r : RingId) (f : Ring → Ring) : (s.modRing r f).sched = s.sched := rfl
@[simp] theorem State.modRing_gov (s : State) (r : RingId) (f : Ring → Ring) : (s.modRing r f).gov = s.gov := rfl
@[simp] theorem State.modRing_ev (s : State) (r : RingId) (f : Ring → Ring) : (s.modRing r f).ev = s.ev := rfl
@[simp] theorem State.modRing_mem (s : State) (r : RingId) (f : Ring → Ring) : (s.modRing r f).mem = s.mem := rfl
@[simp] theorem State.modRing_hostMem (s : State) (r : RingId) (f : Ring → Ring) : (s.modRing r f).hostMem = s.hostMem := rfl
@[simp] theorem State.modRing_cores (s : State) (r : RingId) (f : Ring → Ring) : (s.modRing r f).cores = s.cores := rfl
@[simp] theorem State.modRing_ctxs (s : State) (r : RingId) (f : Ring → Ring) : (s.modRing r f).ctxs = s.ctxs := rfl
@[simp] theorem State.modRing_rings (s : State) (r : RingId) (f : Ring → Ring) : (s.modRing r f).rings = Tab.change s.rings (ringKey r) f := rfl
@[simp] theorem State.modRing_cmds (s : State) (r : RingId) (f : Ring → Ring) : (s.modRing r f).cmds = s.cmds := rfl
@[simp] theorem State.modRing_cmdNo (s : State) (r : RingId) (f : Ring → Ring) : (s.modRing r f).cmdNo = s.cmdNo := rfl
@[simp] theorem State.modRing_colls (s : State) (r : RingId) (f : Ring → Ring) : (s.modRing r f).colls = s.colls := rfl
@[simp] theorem State.modRing_closedLedgers (s : State) (r : RingId) (f : Ring → Ring) : (s.modRing r f).closedLedgers = s.closedLedgers := rfl
@[simp] theorem State.modRing_fabric (s : State) (r : RingId) (f : Ring → Ring) : (s.modRing r f).fabric = s.fabric := rfl
@[simp] theorem State.modRing_host (s : State) (r : RingId) (f : Ring → Ring) : (s.modRing r f).host = s.host := rfl
@[simp] theorem State.modRing_sec (s : State) (r : RingId) (f : Ring → Ring) : (s.modRing r f).sec = s.sec := rfl
@[simp] theorem State.modRing_factory (s : State) (r : RingId) (f : Ring → Ring) : (s.modRing r f).factory = s.factory := rfl
@[simp] theorem State.modRing_fw (s : State) (r : RingId) (f : Ring → Ring) : (s.modRing r f).fw = s.fw := rfl
@[simp] theorem State.modRing_units (s : State) (r : RingId) (f : Ring → Ring) : (s.modRing r f).units = s.units := rfl
@[simp] theorem State.modRing_board (s : State) (r : RingId) (f : Ring → Ring) : (s.modRing r f).board = s.board := rfl
@[simp] theorem State.modRing_regs (s : State) (r : RingId) (f : Ring → Ring) : (s.modRing r f).regs = s.regs := rfl
@[simp] theorem State.modRing_counters (s : State) (r : RingId) (f : Ring → Ring) : (s.modRing r f).counters = s.counters := rfl
@[simp] theorem State.modRing_ctxCounters (s : State) (r : RingId) (f : Ring → Ring) : (s.modRing r f).ctxCounters = s.ctxCounters := rfl
@[simp] theorem State.modRing_fresh (s : State) (r : RingId) (f : Ring → Ring) : (s.modRing r f).fresh = s.fresh := rfl
@[simp] theorem State.modRing_out (s : State) (r : RingId) (f : Ring → Ring) : (s.modRing r f).out = s.out := rfl
@[simp] theorem State.modRing_pending (s : State) (r : RingId) (f : Ring → Ring) : (s.modRing r f).pending = s.pending := rfl

@[simp] theorem State.modCmd_now (s : State) (h : Word) (f : Cmd → Cmd) : (s.modCmd h f).now = s.now := rfl
@[simp] theorem State.modCmd_turn (s : State) (h : Word) (f : Cmd → Cmd) : (s.modCmd h f).turn = s.turn := rfl
@[simp] theorem State.modCmd_params (s : State) (h : Word) (f : Cmd → Cmd) : (s.modCmd h f).params = s.params := rfl
@[simp] theorem State.modCmd_net (s : State) (h : Word) (f : Cmd → Cmd) : (s.modCmd h f).net = s.net := rfl
@[simp] theorem State.modCmd_sched (s : State) (h : Word) (f : Cmd → Cmd) : (s.modCmd h f).sched = s.sched := rfl
@[simp] theorem State.modCmd_gov (s : State) (h : Word) (f : Cmd → Cmd) : (s.modCmd h f).gov = s.gov := rfl
@[simp] theorem State.modCmd_ev (s : State) (h : Word) (f : Cmd → Cmd) : (s.modCmd h f).ev = s.ev := rfl
@[simp] theorem State.modCmd_mem (s : State) (h : Word) (f : Cmd → Cmd) : (s.modCmd h f).mem = s.mem := rfl
@[simp] theorem State.modCmd_hostMem (s : State) (h : Word) (f : Cmd → Cmd) : (s.modCmd h f).hostMem = s.hostMem := rfl
@[simp] theorem State.modCmd_cores (s : State) (h : Word) (f : Cmd → Cmd) : (s.modCmd h f).cores = s.cores := rfl
@[simp] theorem State.modCmd_ctxs (s : State) (h : Word) (f : Cmd → Cmd) : (s.modCmd h f).ctxs = s.ctxs := rfl
@[simp] theorem State.modCmd_rings (s : State) (h : Word) (f : Cmd → Cmd) : (s.modCmd h f).rings = s.rings := rfl
@[simp] theorem State.modCmd_cmds (s : State) (h : Word) (f : Cmd → Cmd) : (s.modCmd h f).cmds = modWhere (fun c => c.handle == h) f s.cmds := rfl
@[simp] theorem State.modCmd_cmdNo (s : State) (h : Word) (f : Cmd → Cmd) : (s.modCmd h f).cmdNo = s.cmdNo := rfl
@[simp] theorem State.modCmd_colls (s : State) (h : Word) (f : Cmd → Cmd) : (s.modCmd h f).colls = s.colls := rfl
@[simp] theorem State.modCmd_closedLedgers (s : State) (h : Word) (f : Cmd → Cmd) : (s.modCmd h f).closedLedgers = s.closedLedgers := rfl
@[simp] theorem State.modCmd_fabric (s : State) (h : Word) (f : Cmd → Cmd) : (s.modCmd h f).fabric = s.fabric := rfl
@[simp] theorem State.modCmd_host (s : State) (h : Word) (f : Cmd → Cmd) : (s.modCmd h f).host = s.host := rfl
@[simp] theorem State.modCmd_sec (s : State) (h : Word) (f : Cmd → Cmd) : (s.modCmd h f).sec = s.sec := rfl
@[simp] theorem State.modCmd_factory (s : State) (h : Word) (f : Cmd → Cmd) : (s.modCmd h f).factory = s.factory := rfl
@[simp] theorem State.modCmd_fw (s : State) (h : Word) (f : Cmd → Cmd) : (s.modCmd h f).fw = s.fw := rfl
@[simp] theorem State.modCmd_units (s : State) (h : Word) (f : Cmd → Cmd) : (s.modCmd h f).units = s.units := rfl
@[simp] theorem State.modCmd_board (s : State) (h : Word) (f : Cmd → Cmd) : (s.modCmd h f).board = s.board := rfl
@[simp] theorem State.modCmd_regs (s : State) (h : Word) (f : Cmd → Cmd) : (s.modCmd h f).regs = s.regs := rfl
@[simp] theorem State.modCmd_counters (s : State) (h : Word) (f : Cmd → Cmd) : (s.modCmd h f).counters = s.counters := rfl
@[simp] theorem State.modCmd_ctxCounters (s : State) (h : Word) (f : Cmd → Cmd) : (s.modCmd h f).ctxCounters = s.ctxCounters := rfl
@[simp] theorem State.modCmd_fresh (s : State) (h : Word) (f : Cmd → Cmd) : (s.modCmd h f).fresh = s.fresh := rfl
@[simp] theorem State.modCmd_out (s : State) (h : Word) (f : Cmd → Cmd) : (s.modCmd h f).out = s.out := rfl
@[simp] theorem State.modCmd_pending (s : State) (h : Word) (f : Cmd → Cmd) : (s.modCmd h f).pending = s.pending := rfl

@[simp] theorem State.modLcore_now (s : State) (x k : Nat) (f : LCore → LCore) : (s.modLcore x k f).now = s.now := rfl
@[simp] theorem State.modLcore_turn (s : State) (x k : Nat) (f : LCore → LCore) : (s.modLcore x k f).turn = s.turn := rfl
@[simp] theorem State.modLcore_params (s : State) (x k : Nat) (f : LCore → LCore) : (s.modLcore x k f).params = s.params := rfl
@[simp] theorem State.modLcore_net (s : State) (x k : Nat) (f : LCore → LCore) : (s.modLcore x k f).net = s.net := rfl
@[simp] theorem State.modLcore_sched (s : State) (x k : Nat) (f : LCore → LCore) : (s.modLcore x k f).sched = s.sched := rfl
@[simp] theorem State.modLcore_gov (s : State) (x k : Nat) (f : LCore → LCore) : (s.modLcore x k f).gov = s.gov := rfl
@[simp] theorem State.modLcore_ev (s : State) (x k : Nat) (f : LCore → LCore) : (s.modLcore x k f).ev = s.ev := rfl
@[simp] theorem State.modLcore_mem (s : State) (x k : Nat) (f : LCore → LCore) : (s.modLcore x k f).mem = s.mem := rfl
@[simp] theorem State.modLcore_hostMem (s : State) (x k : Nat) (f : LCore → LCore) : (s.modLcore x k f).hostMem = s.hostMem := rfl
@[simp] theorem State.modLcore_cores (s : State) (x k : Nat) (f : LCore → LCore) : (s.modLcore x k f).cores = s.cores := rfl
@[simp] theorem State.modLcore_ctxs (s : State) (x k : Nat) (f : LCore → LCore) : (s.modLcore x k f).ctxs = Tab.upd s.ctxs {} x fun cx => { cx with lcores := Tab.upd cx.lcores {} k f } := rfl
@[simp] theorem State.modLcore_rings (s : State) (x k : Nat) (f : LCore → LCore) : (s.modLcore x k f).rings = s.rings := rfl
@[simp] theorem State.modLcore_cmds (s : State) (x k : Nat) (f : LCore → LCore) : (s.modLcore x k f).cmds = s.cmds := rfl
@[simp] theorem State.modLcore_cmdNo (s : State) (x k : Nat) (f : LCore → LCore) : (s.modLcore x k f).cmdNo = s.cmdNo := rfl
@[simp] theorem State.modLcore_colls (s : State) (x k : Nat) (f : LCore → LCore) : (s.modLcore x k f).colls = s.colls := rfl
@[simp] theorem State.modLcore_closedLedgers (s : State) (x k : Nat) (f : LCore → LCore) : (s.modLcore x k f).closedLedgers = s.closedLedgers := rfl
@[simp] theorem State.modLcore_fabric (s : State) (x k : Nat) (f : LCore → LCore) : (s.modLcore x k f).fabric = s.fabric := rfl
@[simp] theorem State.modLcore_host (s : State) (x k : Nat) (f : LCore → LCore) : (s.modLcore x k f).host = s.host := rfl
@[simp] theorem State.modLcore_sec (s : State) (x k : Nat) (f : LCore → LCore) : (s.modLcore x k f).sec = s.sec := rfl
@[simp] theorem State.modLcore_factory (s : State) (x k : Nat) (f : LCore → LCore) : (s.modLcore x k f).factory = s.factory := rfl
@[simp] theorem State.modLcore_fw (s : State) (x k : Nat) (f : LCore → LCore) : (s.modLcore x k f).fw = s.fw := rfl
@[simp] theorem State.modLcore_units (s : State) (x k : Nat) (f : LCore → LCore) : (s.modLcore x k f).units = s.units := rfl
@[simp] theorem State.modLcore_board (s : State) (x k : Nat) (f : LCore → LCore) : (s.modLcore x k f).board = s.board := rfl
@[simp] theorem State.modLcore_regs (s : State) (x k : Nat) (f : LCore → LCore) : (s.modLcore x k f).regs = s.regs := rfl
@[simp] theorem State.modLcore_counters (s : State) (x k : Nat) (f : LCore → LCore) : (s.modLcore x k f).counters = s.counters := rfl
@[simp] theorem State.modLcore_ctxCounters (s : State) (x k : Nat) (f : LCore → LCore) : (s.modLcore x k f).ctxCounters = s.ctxCounters := rfl
@[simp] theorem State.modLcore_fresh (s : State) (x k : Nat) (f : LCore → LCore) : (s.modLcore x k f).fresh = s.fresh := rfl
@[simp] theorem State.modLcore_out (s : State) (x k : Nat) (f : LCore → LCore) : (s.modLcore x k f).out = s.out := rfl
@[simp] theorem State.modLcore_pending (s : State) (x k : Nat) (f : LCore → LCore) : (s.modLcore x k f).pending = s.pending := rfl

@[simp] theorem State.modKernel_now (s : State) (x : Nat) (h : Word) (f : KRun → KRun) : (s.modKernel x h f).now = s.now := rfl
@[simp] theorem State.modKernel_turn (s : State) (x : Nat) (h : Word) (f : KRun → KRun) : (s.modKernel x h f).turn = s.turn := rfl
@[simp] theorem State.modKernel_params (s : State) (x : Nat) (h : Word) (f : KRun → KRun) : (s.modKernel x h f).params = s.params := rfl
@[simp] theorem State.modKernel_net (s : State) (x : Nat) (h : Word) (f : KRun → KRun) : (s.modKernel x h f).net = s.net := rfl
@[simp] theorem State.modKernel_sched (s : State) (x : Nat) (h : Word) (f : KRun → KRun) : (s.modKernel x h f).sched = s.sched := rfl
@[simp] theorem State.modKernel_gov (s : State) (x : Nat) (h : Word) (f : KRun → KRun) : (s.modKernel x h f).gov = s.gov := rfl
@[simp] theorem State.modKernel_ev (s : State) (x : Nat) (h : Word) (f : KRun → KRun) : (s.modKernel x h f).ev = s.ev := rfl
@[simp] theorem State.modKernel_mem (s : State) (x : Nat) (h : Word) (f : KRun → KRun) : (s.modKernel x h f).mem = s.mem := rfl
@[simp] theorem State.modKernel_hostMem (s : State) (x : Nat) (h : Word) (f : KRun → KRun) : (s.modKernel x h f).hostMem = s.hostMem := rfl
@[simp] theorem State.modKernel_cores (s : State) (x : Nat) (h : Word) (f : KRun → KRun) : (s.modKernel x h f).cores = s.cores := rfl
@[simp] theorem State.modKernel_ctxs (s : State) (x : Nat) (h : Word) (f : KRun → KRun) : (s.modKernel x h f).ctxs = Tab.upd s.ctxs {} x fun cx => { cx with kernels := modWhere (fun k => k.handle == h) f cx.kernels } := rfl
@[simp] theorem State.modKernel_rings (s : State) (x : Nat) (h : Word) (f : KRun → KRun) : (s.modKernel x h f).rings = s.rings := rfl
@[simp] theorem State.modKernel_cmds (s : State) (x : Nat) (h : Word) (f : KRun → KRun) : (s.modKernel x h f).cmds = s.cmds := rfl
@[simp] theorem State.modKernel_cmdNo (s : State) (x : Nat) (h : Word) (f : KRun → KRun) : (s.modKernel x h f).cmdNo = s.cmdNo := rfl
@[simp] theorem State.modKernel_colls (s : State) (x : Nat) (h : Word) (f : KRun → KRun) : (s.modKernel x h f).colls = s.colls := rfl
@[simp] theorem State.modKernel_closedLedgers (s : State) (x : Nat) (h : Word) (f : KRun → KRun) : (s.modKernel x h f).closedLedgers = s.closedLedgers := rfl
@[simp] theorem State.modKernel_fabric (s : State) (x : Nat) (h : Word) (f : KRun → KRun) : (s.modKernel x h f).fabric = s.fabric := rfl
@[simp] theorem State.modKernel_host (s : State) (x : Nat) (h : Word) (f : KRun → KRun) : (s.modKernel x h f).host = s.host := rfl
@[simp] theorem State.modKernel_sec (s : State) (x : Nat) (h : Word) (f : KRun → KRun) : (s.modKernel x h f).sec = s.sec := rfl
@[simp] theorem State.modKernel_factory (s : State) (x : Nat) (h : Word) (f : KRun → KRun) : (s.modKernel x h f).factory = s.factory := rfl
@[simp] theorem State.modKernel_fw (s : State) (x : Nat) (h : Word) (f : KRun → KRun) : (s.modKernel x h f).fw = s.fw := rfl
@[simp] theorem State.modKernel_units (s : State) (x : Nat) (h : Word) (f : KRun → KRun) : (s.modKernel x h f).units = s.units := rfl
@[simp] theorem State.modKernel_board (s : State) (x : Nat) (h : Word) (f : KRun → KRun) : (s.modKernel x h f).board = s.board := rfl
@[simp] theorem State.modKernel_regs (s : State) (x : Nat) (h : Word) (f : KRun → KRun) : (s.modKernel x h f).regs = s.regs := rfl
@[simp] theorem State.modKernel_counters (s : State) (x : Nat) (h : Word) (f : KRun → KRun) : (s.modKernel x h f).counters = s.counters := rfl
@[simp] theorem State.modKernel_ctxCounters (s : State) (x : Nat) (h : Word) (f : KRun → KRun) : (s.modKernel x h f).ctxCounters = s.ctxCounters := rfl
@[simp] theorem State.modKernel_fresh (s : State) (x : Nat) (h : Word) (f : KRun → KRun) : (s.modKernel x h f).fresh = s.fresh := rfl
@[simp] theorem State.modKernel_out (s : State) (x : Nat) (h : Word) (f : KRun → KRun) : (s.modKernel x h f).out = s.out := rfl
@[simp] theorem State.modKernel_pending (s : State) (x : Nat) (h : Word) (f : KRun → KRun) : (s.modKernel x h f).pending = s.pending := rfl

end Sys2Proof.Machine
end

