-- ==== Sys2Proof/Laws/Tables.lean ====
section
/-! SUPPORT. Laws of sparse tables: what a key reads as after each operation, and that each operation keeps the canonical form. -/

namespace Sys2Proof.Machine

variable {α : Type}

/-! ## Reading after writing -/

@[simp] theorem Tab.opt_nil (k : Nat) : Tab.opt ([] : List (Nat × α)) k = none := rfl

theorem Tab.opt_cons (a : Nat) (v : α) (r : List (Nat × α)) (k : Nat) :
    Tab.opt ((a, v) :: r) k = if a = k then some v else Tab.opt r k := rfl

@[simp] theorem Tab.look_nil (d : α) (k : Nat) : Tab.look [] d k = d := rfl

@[simp] theorem Tab.opt_ins_same (t : List (Nat × α)) (k : Nat) (v : α) : Tab.opt (Tab.ins t k v) k = some v := by
  induction t with
  | nil => simp [Tab.ins, Tab.opt_cons]
  | cons e r ih =>
    obtain ⟨a, u⟩ := e
    simp only [Tab.ins]
    split
    · simp [Tab.opt_cons]
    · split
      · simp [Tab.opt_cons]
      · next h1 h2 => simp [Tab.opt_cons, h2, ih]

theorem Tab.opt_ins_ne (t : List (Nat × α)) {k j : Nat} (v : α) (h : j ≠ k) : Tab.opt (Tab.ins t k v) j = Tab.opt t j := by
  induction t with
  | nil => simp [Tab.ins, Tab.opt_cons, Ne.symm h]
  | cons e r ih =>
    obtain ⟨a, u⟩ := e
    simp only [Tab.ins]
    split
    · simp [Tab.opt_cons, Ne.symm h]
    · split
      · next h1 h2 => subst h2; simp [Tab.opt_cons, Ne.symm h]
      · simp [Tab.opt_cons, ih]

theorem Tab.opt_filter_of (t : List (Nat × α)) (p : Nat → Bool) (k : Nat) :
    Tab.opt (t.filter fun e => p e.1) k = if p k then Tab.opt t k else none := by
  induction t with
  | nil => simp
  | cons e r ih =>
    obtain ⟨a, u⟩ := e
    by_cases hp : p a = true
    · simp only [List.filter_cons, hp, if_true, Tab.opt_cons, ih]
      by_cases hk : a = k
      · subst hk; simp [hp]
      · simp [hk]
    · rw [List.filter_cons_of_neg (by simpa using hp), ih, Tab.opt_cons]
      by_cases hk : a = k
      · subst hk; simp [hp]
      · simp [hk]

@[simp] theorem Tab.opt_del_same (t : List (Nat × α)) (k : Nat) : Tab.opt (Tab.del t k) k = none := by
  have h := Tab.opt_filter_of t (fun j => j != k) k
  simpa [Tab.del] using h

theorem Tab.opt_del_ne (t : List (Nat × α)) {k j : Nat} (h : j ≠ k) : Tab.opt (Tab.del t k) j = Tab.opt t j := by
  have h' := Tab.opt_filter_of t (fun j => j != k) j
  simpa [Tab.del, h] using h'

@[simp] theorem Tab.look_ins_same (t : List (Nat × α)) (d : α) (k : Nat) (v : α) : Tab.look (Tab.ins t k v) d k = v := by
  simp [Tab.look]

theorem Tab.look_ins_ne (t : List (Nat × α)) (d : α) {k j : Nat} (v : α) (h : j ≠ k) :
    Tab.look (Tab.ins t k v) d j = Tab.look t d j := by
  simp [Tab.look, Tab.opt_ins_ne t v h]

@[simp] theorem Tab.look_put_same [DecidableEq α] (t : List (Nat × α)) (d : α) (k : Nat) (v : α) :
    Tab.look (Tab.put t d k v) d k = v := by
  unfold Tab.put
  split
  · next h => simp [Tab.look, h]
  · simp

theorem Tab.look_put_ne [DecidableEq α] (t : List (Nat × α)) (d : α) {k j : Nat} (v : α) (h : j ≠ k) :
    Tab.look (Tab.put t d k v) d j = Tab.look t d j := by
  unfold Tab.put
  split
  · simp [Tab.look, Tab.opt_del_ne t h]
  · exact Tab.look_ins_ne t d v h

@[simp] theorem Tab.look_upd_same [DecidableEq α] (t : List (Nat × α)) (d : α) (k : Nat) (f : α → α) :
    Tab.look (Tab.upd t d k f) d k = f (Tab.look t d k) := by
  simp [Tab.upd]

theorem Tab.look_upd_ne [DecidableEq α] (t : List (Nat × α)) (d : α) {k j : Nat} (f : α → α) (h : j ≠ k) :
    Tab.look (Tab.upd t d k f) d j = Tab.look t d j := Tab.look_put_ne t d _ h

theorem Tab.opt_map_snd (t : List (Nat × α)) (g : Nat → α → α) (k : Nat) :
    Tab.opt (t.map fun e => (e.1, g e.1 e.2)) k = (Tab.opt t k).map (g k) := by
  induction t with
  | nil => simp
  | cons e r ih =>
    obtain ⟨a, u⟩ := e
    simp only [List.map_cons, Tab.opt_cons, ih]
    by_cases hk : a = k
    · subst hk; simp
    · simp [hk]

theorem Tab.change_eq (t : List (Nat × α)) (k : Nat) (f : α → α) :
    Tab.change t k f = t.map fun e => (e.1, if e.1 = k then f e.2 else e.2) := by
  unfold Tab.change
  apply List.map_congr_left
  intro e _
  by_cases h : e.1 = k <;> simp [h]

@[simp] theorem Tab.opt_change_same (t : List (Nat × α)) (k : Nat) (f : α → α) :
    Tab.opt (Tab.change t k f) k = (Tab.opt t k).map f := by
  rw [Tab.change_eq, Tab.opt_map_snd t (fun j v => if j = k then f v else v)]
  simp

theorem Tab.opt_change_ne (t : List (Nat × α)) {k j : Nat} (f : α → α) (h : j ≠ k) :
    Tab.opt (Tab.change t k f) j = Tab.opt t j := by
  rw [Tab.change_eq, Tab.opt_map_snd t (fun i v => if i = k then f v else v)]
  simp [h]

theorem Tab.opt_append (t u : List (Nat × α)) (k : Nat) : Tab.opt (t ++ u) k = (Tab.opt t k).or (Tab.opt u k) := by
  induction t with
  | nil => simp
  | cons e r ih =>
    obtain ⟨a, v⟩ := e
    simp only [List.cons_append, Tab.opt_cons, ih]
    split <;> simp

theorem Tab.opt_run [DecidableEq α] (d : α) (l : List α) (base k : Nat) :
    (Tab.opt (Tab.run d base l) k).getD d = if base ≤ k then (l[k - base]?).getD d else d := by
  induction l generalizing base with
  | nil => simp [Tab.run]
  | cons v r ih =>
    by_cases hv : v = d
    · simp only [Tab.run, hv, if_true, ih]
      by_cases h1 : base + 1 ≤ k
      · have e : k - base = (k - (base + 1)) + 1 := by omega
        simp [h1, show base ≤ k by omega, e]
      · by_cases h2 : base ≤ k
        · have e : k - base = 0 := by omega
          simp [h1, h2, e]
        · simp [h1, h2]
    · simp only [Tab.run, hv, if_false, Tab.opt_cons]
      by_cases h0 : base = k
      · subst h0; simp
      · simp only [h0, if_false, ih]
        by_cases h1 : base + 1 ≤ k
        · have e : k - base = (k - (base + 1)) + 1 := by omega
          simp [h1, show base ≤ k by omega, e]
        · simp [h1, show ¬ base ≤ k by omega]

/-- What a key reads as after a fill: the list's element within the range, what it read as before outside it. -/
theorem Tab.look_fill [DecidableEq α] (t : List (Nat × α)) (d : α) (base : Nat) (l : List α) (k : Nat) :
    Tab.look (Tab.fill t d base l) d k =
      if base ≤ k ∧ k < base + l.length then (l[k - base]?).getD d else Tab.look t d k := by
  have hlo := Tab.opt_filter_of t (fun j => decide (j < base)) k
  have hhi := Tab.opt_filter_of t (fun j => decide (base + l.length ≤ j)) k
  have hr := Tab.opt_run d l base k
  simp only [Tab.look, Tab.fill, Tab.opt_append] at *
  rw [hlo, hhi]
  by_cases h1 : k < base
  · have e : Tab.opt (Tab.run d base l) k = none ∨ Tab.opt (Tab.run d base l) k = some d := by
      simp only [show ¬ base ≤ k by omega, if_false] at hr
      cases h : Tab.opt (Tab.run d base l) k with
      | none => exact .inl rfl
      | some v => rw [h] at hr; exact .inr (by simpa using hr)
    rcases e with e | e <;> cases ht : Tab.opt t k <;> simp [h1, e, show ¬ base ≤ k by omega, show ¬ base + l.length ≤ k by omega]
  · by_cases h2 : k < base + l.length
    · simp only [show base ≤ k by omega, if_true] at hr
      simp only [h1, show ¬ base + l.length ≤ k by omega, decide_false, Bool.false_eq_true, if_false, Option.none_or, Option.or_none, hr]
      simp [show base ≤ k by omega, h2]
    · have e : Tab.opt (Tab.run d base l) k = none ∨ Tab.opt (Tab.run d base l) k = some d := by
        have hl : l[k - base]? = none := by
          apply List.getElem?_eq_none; omega
        simp only [show base ≤ k by omega, if_true, hl] at hr
        cases h : Tab.opt (Tab.run d base l) k with
        | none => exact .inl rfl
        | some v => rw [h] at hr; exact .inr (by simpa using hr)
      have hnone : Tab.opt (Tab.run d base l) k = none := by
        clear e hr hlo hhi
        induction l generalizing base with
        | nil => rfl
        | cons v r ih =>
          have hlen : (v :: r).length = r.length + 1 := rfl
          have := ih (base + 1) (by omega) (by omega)
          simp only [Tab.run]
          split
          · exact this
          · rw [Tab.opt_cons, if_neg (by omega)]; exact this
      simp [h1, h2, hnone, show base + l.length ≤ k by omega]

/-! ## The canonical form -/

/-- Every key of a table is at least `b`. -/
def Tab.above (b : Nat) (t : List (Nat × α)) : Prop := ∀ e ∈ t, b ≤ e.1

/-- Rising, as a property of pairs. -/
theorem Tab.rising_iff (t : List (Nat × α)) : Tab.rising t = true ↔ t.Pairwise fun a b => a.1 < b.1 := by
  induction t with
  | nil => simp [Tab.rising]
  | cons e r ih =>
    obtain ⟨a, u⟩ := e
    cases r with
    | nil => simp [Tab.rising]
    | cons f q =>
      obtain ⟨b, v⟩ := f
      simp only [Tab.rising, Bool.and_eq_true, decide_eq_true_eq, ih, List.pairwise_cons]
      constructor
      · rintro ⟨h1, h2, h3⟩
        refine ⟨?_, h2, h3⟩
        intro x hx
        rcases List.mem_cons.mp hx with rfl | hx
        · exact h1
        · exact Nat.lt_trans h1 (h2 x hx)
      · rintro ⟨h1, h2, h3⟩
        exact ⟨h1 (b, v) (by simp), h2, h3⟩

theorem Tab.wf_iff [DecidableEq α] (t : List (Nat × α)) (d : α) :
    Tab.wf t d = true ↔ (t.Pairwise fun a b => a.1 < b.1) ∧ ∀ e ∈ t, e.2 ≠ d := by
  simp [Tab.wf, Tab.rising_iff]

/-- Leaving entries out keeps the form. -/
theorem Tab.wf_filter [DecidableEq α] {t : List (Nat × α)} {d : α} (h : Tab.wf t d = true) (p : Nat × α → Bool) :
    Tab.wf (t.filter p) d = true := by
  rw [Tab.wf_iff] at *
  exact ⟨h.1.filter p, fun e he => h.2 e (List.mem_filter.mp he).1⟩

theorem Tab.mem_ins {t : List (Nat × α)} {k : Nat} {v : α} {e : Nat × α} (h : e ∈ Tab.ins t k v) : e = (k, v) ∨ e ∈ t := by
  induction t with
  | nil => simpa [Tab.ins] using h
  | cons f r ih =>
    obtain ⟨a, u⟩ := f
    simp only [Tab.ins] at h
    split at h
    · simpa using h
    · split at h
      · rcases List.mem_cons.mp h with h | h
        · exact .inl h
        · exact .inr (List.mem_cons_of_mem _ h)
      · rcases List.mem_cons.mp h with h | h
        · exact .inr (by simp [h])
        · rcases ih h with h | h
          · exact .inl h
          · exact .inr (List.mem_cons_of_mem _ h)

theorem Tab.ins_pairwise {t : List (Nat × α)} (h : t.Pairwise fun a b => a.1 < b.1) (k : Nat) (v : α) :
    (Tab.ins t k v).Pairwise fun a b => a.1 < b.1 := by
  induction t with
  | nil => simp [Tab.ins]
  | cons e r ih =>
    obtain ⟨a, u⟩ := e
    rw [List.pairwise_cons] at h
    simp only [Tab.ins]
    split
    · next hk =>
      refine List.pairwise_cons.mpr ⟨?_, List.pairwise_cons.mpr h⟩
      intro x hx
      rcases List.mem_cons.mp hx with rfl | hx
      · exact hk
      · exact Nat.lt_trans hk (h.1 x hx)
    · split
      · next hk =>
        subst hk
        exact List.pairwise_cons.mpr ⟨h.1, h.2⟩
      · refine List.pairwise_cons.mpr ⟨?_, ih h.2⟩
        intro x hx
        rcases Tab.mem_ins hx with rfl | hx
        · show a < k
          omega
        · exact h.1 x hx

theorem Tab.wf_ins [DecidableEq α] {t : List (Nat × α)} {d : α} (h : Tab.wf t d = true) {k : Nat} {v : α} (hv : v ≠ d) :
    Tab.wf (Tab.ins t k v) d = true := by
  rw [Tab.wf_iff] at *
  refine ⟨Tab.ins_pairwise h.1 k v, ?_⟩
  intro e he
  rcases Tab.mem_ins he with rfl | he
  · exact hv
  · exact h.2 e he

theorem Tab.wf_del [DecidableEq α] {t : List (Nat × α)} {d : α} (h : Tab.wf t d = true) (k : Nat) :
    Tab.wf (Tab.del t k) d = true := Tab.wf_filter h _

theorem Tab.wf_put [DecidableEq α] {t : List (Nat × α)} {d : α} (h : Tab.wf t d = true) (k : Nat) (v : α) :
    Tab.wf (Tab.put t d k v) d = true := by
  unfold Tab.put
  split
  · exact Tab.wf_del h k
  · next hv => exact Tab.wf_ins h hv

theorem Tab.wf_upd [DecidableEq α] {t : List (Nat × α)} {d : α} (h : Tab.wf t d = true) (k : Nat) (f : α → α) :
    Tab.wf (Tab.upd t d k f) d = true := Tab.wf_put h k _

theorem Tab.wf_clear [DecidableEq α] {t : List (Nat × α)} {d : α} (h : Tab.wf t d = true) (base n : Nat) :
    Tab.wf (Tab.clear t base n) d = true := Tab.wf_filter h _

theorem Tab.mem_run [DecidableEq α] (d : α) (l : List α) (base : Nat) :
    ∀ e ∈ Tab.run d base l, base ≤ e.1 ∧ e.1 < base + l.length ∧ e.2 ≠ d := by
  induction l generalizing base with
  | nil => simp [Tab.run]
  | cons v r ih =>
    intro e he
    have hlen : (v :: r).length = r.length + 1 := rfl
    simp only [Tab.run] at he
    split at he
    · have := ih (base + 1) e he
      exact ⟨by omega, by omega, this.2.2⟩
    · next hv =>
      rcases List.mem_cons.mp he with rfl | he
      · exact ⟨Nat.le_refl _, by simp, hv⟩
      · have := ih (base + 1) e he
        exact ⟨by omega, by omega, this.2.2⟩

theorem Tab.run_pairwise [DecidableEq α] (d : α) (l : List α) (base : Nat) :
    (Tab.run d base l).Pairwise fun a b => a.1 < b.1 := by
  induction l generalizing base with
  | nil => simp [Tab.run]
  | cons v r ih =>
    simp only [Tab.run]
    split
    · exact ih _
    · refine List.pairwise_cons.mpr ⟨?_, ih _⟩
      intro e he
      exact (Tab.mem_run d r (base + 1) e he).1

/-- A fill keeps the form, whatever it writes. -/
theorem Tab.wf_fill [DecidableEq α] {t : List (Nat × α)} {d : α} (h : Tab.wf t d = true) (base : Nat) (l : List α) :
    Tab.wf (Tab.fill t d base l) d = true := by
  rw [Tab.wf_iff] at *
  constructor
  · unfold Tab.fill
    refine List.pairwise_append.mpr ⟨List.pairwise_append.mpr ⟨h.1.filter _, Tab.run_pairwise d l base, ?_⟩, h.1.filter _, ?_⟩
    · intro a ha b hb
      have h1 := (List.mem_filter.mp ha).2
      have h2 := (Tab.mem_run d l base b hb).1
      simp only [decide_eq_true_eq] at h1
      omega
    · intro a ha b hb
      have h2 := (List.mem_filter.mp hb).2
      simp only [decide_eq_true_eq] at h2
      rcases List.mem_append.mp ha with ha | ha
      · have h1 := (List.mem_filter.mp ha).2
        simp only [decide_eq_true_eq] at h1
        omega
      · have h1 := Tab.mem_run d l base a ha
        omega
  · intro e he
    unfold Tab.fill at he
    rcases List.mem_append.mp he with he | he
    · rcases List.mem_append.mp he with he | he
      · exact h.2 e (List.mem_filter.mp he).1
      · exact (Tab.mem_run d l base e he).2.2
    · exact h.2 e (List.mem_filter.mp he).1

end Sys2Proof.Machine
end

