-- ==== Sys2Proof/Laws/Ops.lean ====
section
/-! SUPPORT. What each named operation over the state can do: reads after changes, events, counters, and the three forms of a command's run. -/

namespace Sys2Proof.Machine

/-! ## The run of a command -/

/-- A command whose condition holds answers its effect, with the turn unit, the clock, the queue and the factory area as they were. -/
theorem when_pos {b : Bool} (h : b = true) (s : State) (f : State → State) : when b s f = .next ((f s.start).settle s) := by
  simp [when, h]

/-- A command that cannot occur leaves the state as it is. -/
theorem when_neg {b : Bool} (h : b = false) (s : State) (f : State → State) : when b s f = .next s.start := by
  simp [when, idle, h]

theorem whenTurn_pos {b : Bool} (h : b = true) (s : State) (f : State → State) :
    whenTurn b s f = .next { f s.start with now := s.now, pending := s.pending, factory := s.factory } := by
  simp [whenTurn, h]

theorem whenTurn_neg {b : Bool} (h : b = false) (s : State) (f : State → State) : whenTurn b s f = .next s.start := by
  simp [whenTurn, idle, h]

/-- What every command keeps: the clock, the queue and the factory area. -/
def State.Keeps (s t : State) : Prop := t.now = s.now ∧ t.pending = s.pending ∧ t.factory = s.factory

/-- What every command but those of the turn unit and of resets keeps. -/
def State.KeepsTurn (s t : State) : Prop := s.Keeps t ∧ t.turn = s.turn

theorem idle_keeps {s t : State} (h : idle s = .next t) : s.KeepsTurn t := by
  simp only [idle, Host.Outcome.next.injEq] at h
  subst h
  exact ⟨⟨rfl, rfl, rfl⟩, rfl⟩

/-- Every command run by `when` keeps the turn unit, the clock, the queue and the factory area. -/
theorem when_keeps {b : Bool} {s t : State} {f : State → State} (h : when b s f = .next t) : s.KeepsTurn t := by
  unfold when at h
  split at h
  · simp only [Host.Outcome.next.injEq] at h
    subst h
    exact ⟨⟨rfl, rfl, rfl⟩, rfl⟩
  · exact idle_keeps h

/-- Every command run by `whenTurn` keeps the clock, the queue and the factory area. -/
theorem whenTurn_keeps {b : Bool} {s t : State} {f : State → State} (h : whenTurn b s f = .next t) : s.Keeps t := by
  unfold whenTurn at h
  split at h
  · simp only [Host.Outcome.next.injEq] at h
    subst h
    exact ⟨rfl, rfl, rfl⟩
  · exact (idle_keeps h).1

theorem whenHold_keeps {b : Bool} {s t : State} {f : State → State} (h : whenHold b s f = .next t) : s.Keeps t := whenTurn_keeps h

/-- What `whenTurn` leaves of the turn unit. -/
theorem whenTurn_turn {b : Bool} {s t : State} {f : State → State} (h : whenTurn b s f = .next t) :
    t.turn = if b then (f s.start).turn else s.turn := by
  unfold whenTurn at h
  split at h
  · next hb =>
    simp only [Host.Outcome.next.injEq] at h
    subst h
    rw [if_pos hb]
  · next hb =>
    simp only [idle, Host.Outcome.next.injEq] at h
    subst h
    rw [if_neg hb]
    rfl

/-- A command that may lead to keeper mode leaves the turn unit as it was, or sends it from LOCKED to HOLDOVER. -/
theorem whenHold_turn {b : Bool} {s t : State} {f : State → State} (h : whenHold b s f = .next t) :
    t.turn = s.turn ∨ (s.turn.st = .locked ∧ t.turn = s.turn.hold) := by
  cases b
  · exact .inl (whenTurn_turn h)
  · have e : t.turn = if (f s.start).turn.st == .holdover && s.turn.st == .locked then s.turn.hold else s.turn := whenTurn_turn h
    by_cases hc : ((f s.start).turn.st == .holdover && s.turn.st == .locked) = true
    · rw [if_pos hc] at e
      simp only [Bool.and_eq_true, beq_iff_eq] at hc
      exact .inr ⟨hc.2, e⟩
    · rw [if_neg hc] at e
      exact .inl e

/-! ## Reads after changes -/

@[simp] theorem State.core_modCore_same (s : State) (c : Nat) (f : CoreSt → CoreSt) : (s.modCore c f).core c = f (s.core c) := by
  simp [State.core]

theorem State.core_modCore_ne (s : State) {c d : Nat} (f : CoreSt → CoreSt) (h : d ≠ c) : (s.modCore c f).core d = s.core d := by
  simp [State.core, Tab.look_upd_ne _ _ _ h]

@[simp] theorem State.ctx_modCtx_same (s : State) (x : Nat) (f : Ctx → Ctx) : (s.modCtx x f).ctx x = f (s.ctx x) := by
  simp [State.ctx]

theorem State.ctx_modCtx_ne (s : State) {x y : Nat} (f : Ctx → Ctx) (h : y ≠ x) : (s.modCtx x f).ctx y = s.ctx y := by
  simp [State.ctx, Tab.look_upd_ne _ _ _ h]

@[simp] theorem State.port_modPort_same (s : State) (p : Nat) (f : Port → Port) : (s.modPort p f).port p = f (s.port p) := by
  simp [State.port]

theorem State.port_modPort_ne (s : State) {p q : Nat} (f : Port → Port) (h : q ≠ p) : (s.modPort p f).port q = s.port q := by
  simp [State.port, Tab.look_upd_ne _ _ _ h]

@[simp] theorem State.ring_modRing_same (s : State) (r : RingId) (f : Ring → Ring) : (s.modRing r f).ring r = (s.ring r).map f := by
  simp [State.ring]

@[simp] theorem State.quad_modQuad_same (s : State) (q : Nat) (f : QuadGov → QuadGov) : (s.modQuad q f).quad q = f (s.quad q) := by
  simp [State.quad]

@[simp] theorem State.core_start (s : State) (c : Nat) : s.start.core c = s.core c := rfl
@[simp] theorem State.ctx_start (s : State) (x : Nat) : s.start.ctx x = s.ctx x := rfl
@[simp] theorem State.port_start (s : State) (p : Nat) : s.start.port p = s.port p := rfl
@[simp] theorem State.ring_start (s : State) (r : RingId) : s.start.ring r = s.ring r := rfl
@[simp] theorem State.cmd_start (s : State) (h : Word) : s.start.cmd h = s.cmd h := rfl
@[simp] theorem State.core_settle (t s : State) (c : Nat) : (t.settle s).core c = t.core c := rfl
@[simp] theorem State.ctx_settle (t s : State) (x : Nat) : (t.settle s).ctx x = t.ctx x := rfl
@[simp] theorem State.port_settle (t s : State) (p : Nat) : (t.settle s).port p = t.port p := rfl
@[simp] theorem State.ring_settle (t s : State) (r : RingId) : (t.settle s).ring r = t.ring r := rfl
@[simp] theorem State.cmd_settle (t s : State) (h : Word) : (t.settle s).cmd h = t.cmd h := rfl
@[simp] theorem State.core_emit (s : State) (o : Out) (c : Nat) : (s.emit o).core c = s.core c := rfl
@[simp] theorem State.ctx_emit (s : State) (o : Out) (x : Nat) : (s.emit o).ctx x = s.ctx x := rfl
@[simp] theorem State.ctx_modCore (s : State) (c : Nat) (f : CoreSt → CoreSt) (x : Nat) : (s.modCore c f).ctx x = s.ctx x := rfl
@[simp] theorem State.core_modCtx (s : State) (x : Nat) (f : Ctx → Ctx) (c : Nat) : (s.modCtx x f).core c = s.core c := rfl

/-! ## Events and counters -/

/-- Delivering a record to subscribers sends something, and changes nothing else. -/
theorem State.notify_eq (s : State) (n : Nat) : ∃ o, s.notify n = { s with out := o } := by
  unfold State.notify
  split
  · exact ⟨_, rfl⟩
  · exact ⟨s.out, rfl⟩

/-- Raising an event touches the event unit and what is sent, and nothing else. -/
theorem State.raise_eq (s : State) (r : EvRec) : ∃ e o, s.raise r = { s with ev := e, out := o } := by
  have k : ∃ e o, s.keepEvent r = { s with ev := e, out := o } := by
    unfold State.keepEvent
    dsimp only
    split
    · obtain ⟨o, h⟩ := State.notify_eq
        { s with ev := { s.ev with
            log := (s.ev.log ++ [{ r with turn := s.turn.count, phase := s.turn.phase, sev := severity r.code, recno := s.ev.recno
                                          func := s.evFunc r }]).drop
              ((s.ev.log ++ [{ r with turn := s.turn.count, phase := s.turn.phase, sev := severity r.code, recno := s.ev.recno
                                      func := s.evFunc r }]).length - 4096)
            recno := s.ev.recno + 1
            queues := Tab.upd s.ev.queues {} (s.evFunc r) fun q => q.hold
              { r with turn := s.turn.count, phase := s.turn.phase, sev := severity r.code, recno := s.ev.recno, func := s.evFunc r }
            perCtx := match r.ctx with
              | some x => Tab.upd s.ev.perCtx 0 x fun n => n + 1
              | none => s.ev.perCtx
            perDev := s.ev.perDev + 1 } } s.ev.recno
      exact ⟨_, o, h⟩
    · exact ⟨_, s.out, rfl⟩
  unfold State.raise
  split
  · exact ⟨s.ev, s.out, rfl⟩
  · split
    · exact k
    · split
      · exact ⟨_, s.out, rfl⟩
      · split
        · exact ⟨_, s.out, rfl⟩
        · exact k

@[simp] theorem State.raise_now (s : State) (r : EvRec) : (s.raise r).now = s.now := by obtain ⟨_, _, h⟩ := State.raise_eq s r; rw [h]
@[simp] theorem State.raise_turn (s : State) (r : EvRec) : (s.raise r).turn = s.turn := by obtain ⟨_, _, h⟩ := State.raise_eq s r; rw [h]
@[simp] theorem State.raise_params (s : State) (r : EvRec) : (s.raise r).params = s.params := by obtain ⟨_, _, h⟩ := State.raise_eq s r; rw [h]
@[simp] theorem State.raise_net (s : State) (r : EvRec) : (s.raise r).net = s.net := by obtain ⟨_, _, h⟩ := State.raise_eq s r; rw [h]
@[simp] theorem State.raise_sched (s : State) (r : EvRec) : (s.raise r).sched = s.sched := by obtain ⟨_, _, h⟩ := State.raise_eq s r; rw [h]
@[simp] theorem State.raise_gov (s : State) (r : EvRec) : (s.raise r).gov = s.gov := by obtain ⟨_, _, h⟩ := State.raise_eq s r; rw [h]
@[simp] theorem State.raise_mem (s : State) (r : EvRec) : (s.raise r).mem = s.mem := by obtain ⟨_, _, h⟩ := State.raise_eq s r; rw [h]
@[simp] theorem State.raise_hostMem (s : State) (r : EvRec) : (s.raise r).hostMem = s.hostMem := by obtain ⟨_, _, h⟩ := State.raise_eq s r; rw [h]
@[simp] theorem State.raise_cores (s : State) (r : EvRec) : (s.raise r).cores = s.cores := by obtain ⟨_, _, h⟩ := State.raise_eq s r; rw [h]
@[simp] theorem State.raise_ctxs (s : State) (r : EvRec) : (s.raise r).ctxs = s.ctxs := by obtain ⟨_, _, h⟩ := State.raise_eq s r; rw [h]
@[simp] theorem State.raise_rings (s : State) (r : EvRec) : (s.raise r).rings = s.rings := by obtain ⟨_, _, h⟩ := State.raise_eq s r; rw [h]
@[simp] theorem State.raise_cmds (s : State) (r : EvRec) : (s.raise r).cmds = s.cmds := by obtain ⟨_, _, h⟩ := State.raise_eq s r; rw [h]
@[simp] theorem State.raise_cmdNo (s : State) (r : EvRec) : (s.raise r).cmdNo = s.cmdNo := by obtain ⟨_, _, h⟩ := State.raise_eq s r; rw [h]
@[simp] theorem State.raise_colls (s : State) (r : EvRec) : (s.raise r).colls = s.colls := by obtain ⟨_, _, h⟩ := State.raise_eq s r; rw [h]
@[simp] theorem State.raise_closedLedgers (s : State) (r : EvRec) : (s.raise r).closedLedgers = s.closedLedgers := by obtain ⟨_, _, h⟩ := State.raise_eq s r; rw [h]
@[simp] theorem State.raise_fabric (s : State) (r : EvRec) : (s.raise r).fabric = s.fabric := by obtain ⟨_, _, h⟩ := State.raise_eq s r; rw [h]
@[simp] theorem State.raise_host (s : State) (r : EvRec) : (s.raise r).host = s.host := by obtain ⟨_, _, h⟩ := State.raise_eq s r; rw [h]
@[simp] theorem State.raise_sec (s : State) (r : EvRec) : (s.raise r).sec = s.sec := by obtain ⟨_, _, h⟩ := State.raise_eq s r; rw [h]
@[simp] theorem State.raise_factory (s : State) (r : EvRec) : (s.raise r).factory = s.factory := by obtain ⟨_, _, h⟩ := State.raise_eq s r; rw [h]
@[simp] theorem State.raise_fw (s : State) (r : EvRec) : (s.raise r).fw = s.fw := by obtain ⟨_, _, h⟩ := State.raise_eq s r; rw [h]
@[simp] theorem State.raise_units (s : State) (r : EvRec) : (s.raise r).units = s.units := by obtain ⟨_, _, h⟩ := State.raise_eq s r; rw [h]
@[simp] theorem State.raise_board (s : State) (r : EvRec) : (s.raise r).board = s.board := by obtain ⟨_, _, h⟩ := State.raise_eq s r; rw [h]
@[simp] theorem State.raise_regs (s : State) (r : EvRec) : (s.raise r).regs = s.regs := by obtain ⟨_, _, h⟩ := State.raise_eq s r; rw [h]
@[simp] theorem State.raise_counters (s : State) (r : EvRec) : (s.raise r).counters = s.counters := by obtain ⟨_, _, h⟩ := State.raise_eq s r; rw [h]
@[simp] theorem State.raise_ctxCounters (s : State) (r : EvRec) : (s.raise r).ctxCounters = s.ctxCounters := by obtain ⟨_, _, h⟩ := State.raise_eq s r; rw [h]
@[simp] theorem State.raise_fresh (s : State) (r : EvRec) : (s.raise r).fresh = s.fresh := by obtain ⟨_, _, h⟩ := State.raise_eq s r; rw [h]
@[simp] theorem State.raise_pending (s : State) (r : EvRec) : (s.raise r).pending = s.pending := by obtain ⟨_, _, h⟩ := State.raise_eq s r; rw [h]
@[simp] theorem State.raiseDev_now (s : State) (c u i : Nat) (d : List Nat) : (s.raiseDev c u i d).now = s.now := State.raise_now s _
@[simp] theorem State.raiseDev_turn (s : State) (c u i : Nat) (d : List Nat) : (s.raiseDev c u i d).turn = s.turn := State.raise_turn s _
@[simp] theorem State.raiseDev_params (s : State) (c u i : Nat) (d : List Nat) : (s.raiseDev c u i d).params = s.params := State.raise_params s _
@[simp] theorem State.raiseDev_net (s : State) (c u i : Nat) (d : List Nat) : (s.raiseDev c u i d).net = s.net := State.raise_net s _
@[simp] theorem State.raiseDev_sched (s : State) (c u i : Nat) (d : List Nat) : (s.raiseDev c u i d).sched = s.sched := State.raise_sched s _
@[simp] theorem State.raiseDev_gov (s : State) (c u i : Nat) (d : List Nat) : (s.raiseDev c u i d).gov = s.gov := State.raise_gov s _
@[simp] theorem State.raiseDev_mem (s : State) (c u i : Nat) (d : List Nat) : (s.raiseDev c u i d).mem = s.mem := State.raise_mem s _
@[simp] theorem State.raiseDev_hostMem (s : State) (c u i : Nat) (d : List Nat) : (s.raiseDev c u i d).hostMem = s.hostMem := State.raise_hostMem s _
@[simp] theorem State.raiseDev_cores (s : State) (c u i : Nat) (d : List Nat) : (s.raiseDev c u i d).cores = s.cores := State.raise_cores s _
@[simp] theorem State.raiseDev_ctxs (s : State) (c u i : Nat) (d : List Nat) : (s.raiseDev c u i d).ctxs = s.ctxs := State.raise_ctxs s _
@[simp] theorem State.raiseDev_rings (s : State) (c u i : Nat) (d : List Nat) : (s.raiseDev c u i d).rings = s.rings := State.raise_rings s _
@[simp] theorem State.raiseDev_cmds (s : State) (c u i : Nat) (d : List Nat) : (s.raiseDev c u i d).cmds = s.cmds := State.raise_cmds s _
@[simp] theorem State.raiseDev_cmdNo (s : State) (c u i : Nat) (d : List Nat) : (s.raiseDev c u i d).cmdNo = s.cmdNo := State.raise_cmdNo s _
@[simp] theorem State.raiseDev_colls (s : State) (c u i : Nat) (d : List Nat) : (s.raiseDev c u i d).colls = s.colls := State.raise_colls s _
@[simp] theorem State.raiseDev_closedLedgers (s : State) (c u i : Nat) (d : List Nat) : (s.raiseDev c u i d).closedLedgers = s.closedLedgers := State.raise_closedLedgers s _
@[simp] theorem State.raiseDev_fabric (s : State) (c u i : Nat) (d : List Nat) : (s.raiseDev c u i d).fabric = s.fabric := State.raise_fabric s _
@[simp] theorem State.raiseDev_host (s : State) (c u i : Nat) (d : List Nat) : (s.raiseDev c u i d).host = s.host := State.raise_host s _
@[simp] theorem State.raiseDev_sec (s : State) (c u i : Nat) (d : List Nat) : (s.raiseDev c u i d).sec = s.sec := State.raise_sec s _
@[simp] theorem State.raiseDev_factory (s : State) (c u i : Nat) (d : List Nat) : (s.raiseDev c u i d).factory = s.factory := State.raise_factory s _
@[simp] theorem State.raiseDev_fw (s : State) (c u i : Nat) (d : List Nat) : (s.raiseDev c u i d).fw = s.fw := State.raise_fw s _
@[simp] theorem State.raiseDev_units (s : State) (c u i : Nat) (d : List Nat) : (s.raiseDev c u i d).units = s.units := State.raise_units s _
@[simp] theorem State.raiseDev_board (s : State) (c u i : Nat) (d : List Nat) : (s.raiseDev c u i d).board = s.board := State.raise_board s _
@[simp] theorem State.raiseDev_regs (s : State) (c u i : Nat) (d : List Nat) : (s.raiseDev c u i d).regs = s.regs := State.raise_regs s _
@[simp] theorem State.raiseDev_counters (s : State) (c u i : Nat) (d : List Nat) : (s.raiseDev c u i d).counters = s.counters := State.raise_counters s _
@[simp] theorem State.raiseDev_ctxCounters (s : State) (c u i : Nat) (d : List Nat) : (s.raiseDev c u i d).ctxCounters = s.ctxCounters := State.raise_ctxCounters s _
@[simp] theorem State.raiseDev_fresh (s : State) (c u i : Nat) (d : List Nat) : (s.raiseDev c u i d).fresh = s.fresh := State.raise_fresh s _
@[simp] theorem State.raiseDev_pending (s : State) (c u i : Nat) (d : List Nat) : (s.raiseDev c u i d).pending = s.pending := State.raise_pending s _
@[simp] theorem State.raiseCtx_now (s : State) (x c : Nat) (d : List Nat) : (s.raiseCtx x c d).now = s.now := State.raise_now s _
@[simp] theorem State.raiseCtx_turn (s : State) (x c : Nat) (d : List Nat) : (s.raiseCtx x c d).turn = s.turn := State.raise_turn s _
@[simp] theorem State.raiseCtx_params (s : State) (x c : Nat) (d : List Nat) : (s.raiseCtx x c d).params = s.params := State.raise_params s _
@[simp] theorem State.raiseCtx_net (s : State) (x c : Nat) (d : List Nat) : (s.raiseCtx x c d).net = s.net := State.raise_net s _
@[simp] theorem State.raiseCtx_sched (s : State) (x c : Nat) (d : List Nat) : (s.raiseCtx x c d).sched = s.sched := State.raise_sched s _
@[simp] theorem State.raiseCtx_gov (s : State) (x c : Nat) (d : List Nat) : (s.raiseCtx x c d).gov = s.gov := State.raise_gov s _
@[simp] theorem State.raiseCtx_mem (s : State) (x c : Nat) (d : List Nat) : (s.raiseCtx x c d).mem = s.mem := State.raise_mem s _
@[simp] theorem State.raiseCtx_hostMem (s : State) (x c : Nat) (d : List Nat) : (s.raiseCtx x c d).hostMem = s.hostMem := State.raise_hostMem s _
@[simp] theorem State.raiseCtx_cores (s : State) (x c : Nat) (d : List Nat) : (s.raiseCtx x c d).cores = s.cores := State.raise_cores s _
@[simp] theorem State.raiseCtx_ctxs (s : State) (x c : Nat) (d : List Nat) : (s.raiseCtx x c d).ctxs = s.ctxs := State.raise_ctxs s _
@[simp] theorem State.raiseCtx_rings (s : State) (x c : Nat) (d : List Nat) : (s.raiseCtx x c d).rings = s.rings := State.raise_rings s _
@[simp] theorem State.raiseCtx_cmds (s : State) (x c : Nat) (d : List Nat) : (s.raiseCtx x c d).cmds = s.cmds := State.raise_cmds s _
@[simp] theorem State.raiseCtx_cmdNo (s : State) (x c : Nat) (d : List Nat) : (s.raiseCtx x c d).cmdNo = s.cmdNo := State.raise_cmdNo s _
@[simp] theorem State.raiseCtx_colls (s : State) (x c : Nat) (d : List Nat) : (s.raiseCtx x c d).colls = s.colls := State.raise_colls s _
@[simp] theorem State.raiseCtx_closedLedgers (s : State) (x c : Nat) (d : List Nat) : (s.raiseCtx x c d).closedLedgers = s.closedLedgers := State.raise_closedLedgers s _
@[simp] theorem State.raiseCtx_fabric (s : State) (x c : Nat) (d : List Nat) : (s.raiseCtx x c d).fabric = s.fabric := State.raise_fabric s _
@[simp] theorem State.raiseCtx_host (s : State) (x c : Nat) (d : List Nat) : (s.raiseCtx x c d).host = s.host := State.raise_host s _
@[simp] theorem State.raiseCtx_sec (s : State) (x c : Nat) (d : List Nat) : (s.raiseCtx x c d).sec = s.sec := State.raise_sec s _
@[simp] theorem State.raiseCtx_factory (s : State) (x c : Nat) (d : List Nat) : (s.raiseCtx x c d).factory = s.factory := State.raise_factory s _
@[simp] theorem State.raiseCtx_fw (s : State) (x c : Nat) (d : List Nat) : (s.raiseCtx x c d).fw = s.fw := State.raise_fw s _
@[simp] theorem State.raiseCtx_units (s : State) (x c : Nat) (d : List Nat) : (s.raiseCtx x c d).units = s.units := State.raise_units s _
@[simp] theorem State.raiseCtx_board (s : State) (x c : Nat) (d : List Nat) : (s.raiseCtx x c d).board = s.board := State.raise_board s _
@[simp] theorem State.raiseCtx_regs (s : State) (x c : Nat) (d : List Nat) : (s.raiseCtx x c d).regs = s.regs := State.raise_regs s _
@[simp] theorem State.raiseCtx_counters (s : State) (x c : Nat) (d : List Nat) : (s.raiseCtx x c d).counters = s.counters := State.raise_counters s _
@[simp] theorem State.raiseCtx_ctxCounters (s : State) (x c : Nat) (d : List Nat) : (s.raiseCtx x c d).ctxCounters = s.ctxCounters := State.raise_ctxCounters s _
@[simp] theorem State.raiseCtx_fresh (s : State) (x c : Nat) (d : List Nat) : (s.raiseCtx x c d).fresh = s.fresh := State.raise_fresh s _
@[simp] theorem State.raiseCtx_pending (s : State) (x c : Nat) (d : List Nat) : (s.raiseCtx x c d).pending = s.pending := State.raise_pending s _

/-- Counting touches one counter and, where it saturates, the event unit. -/
theorem State.bump_eq (s : State) (a n : Nat) (x : Option Nat) : ∃ c e o, s.bump a n x = { s with counters := c, ev := e, out := o } := by
  unfold State.bump
  dsimp only
  split
  · obtain ⟨e, o, h⟩ := State.raise_eq { s with counters := Tab.put s.counters {} a ((Tab.look s.counters {} a).add n) }
      { code := 0x0C06, ctx := x, detail := [a] }
    exact ⟨_, e, o, h⟩
  · exact ⟨_, s.ev, s.out, rfl⟩

theorem State.bumpCtx_eq (s : State) (x n k : Nat) : ∃ c e o, s.bumpCtx x n k = { s with ctxCounters := c, ev := e, out := o } := by
  unfold State.bumpCtx
  dsimp only
  split
  · obtain ⟨e, o, h⟩ := State.raise_eq { s with ctxCounters := Tab.put s.ctxCounters {} (1024 * x + n) ((Tab.look s.ctxCounters {} (1024 * x + n)).add k) }
      { code := 0x0C06, ctx := some x }
    exact ⟨_, e, o, h⟩
  · exact ⟨_, s.ev, s.out, rfl⟩

@[simp] theorem State.bump_now (s : State) (a n : Nat) (x : Option Nat) : (s.bump a n x).now = s.now := by obtain ⟨_, _, _, h⟩ := State.bump_eq s a n x; rw [h]
@[simp] theorem State.bump_turn (s : State) (a n : Nat) (x : Option Nat) : (s.bump a n x).turn = s.turn := by obtain ⟨_, _, _, h⟩ := State.bump_eq s a n x; rw [h]
@[simp] theorem State.bump_params (s : State) (a n : Nat) (x : Option Nat) : (s.bump a n x).params = s.params := by obtain ⟨_, _, _, h⟩ := State.bump_eq s a n x; rw [h]
@[simp] theorem State.bump_net (s : State) (a n : Nat) (x : Option Nat) : (s.bump a n x).net = s.net := by obtain ⟨_, _, _, h⟩ := State.bump_eq s a n x; rw [h]
@[simp] theorem State.bump_sched (s : State) (a n : Nat) (x : Option Nat) : (s.bump a n x).sched = s.sched := by obtain ⟨_, _, _, h⟩ := State.bump_eq s a n x; rw [h]
@[simp] theorem State.bump_gov (s : State) (a n : Nat) (x : Option Nat) : (s.bump a n x).gov = s.gov := by obtain ⟨_, _, _, h⟩ := State.bump_eq s a n x; rw [h]
@[simp] theorem State.bump_mem (s : State) (a n : Nat) (x : Option Nat) : (s.bump a n x).mem = s.mem := by obtain ⟨_, _, _, h⟩ := State.bump_eq s a n x; rw [h]
@[simp] theorem State.bump_hostMem (s : State) (a n : Nat) (x : Option Nat) : (s.bump a n x).hostMem = s.hostMem := by obtain ⟨_, _, _, h⟩ := State.bump_eq s a n x; rw [h]
@[simp] theorem State.bump_cores (s : State) (a n : Nat) (x : Option Nat) : (s.bump a n x).cores = s.cores := by obtain ⟨_, _, _, h⟩ := State.bump_eq s a n x; rw [h]
@[simp] theorem State.bump_ctxs (s : State) (a n : Nat) (x : Option Nat) : (s.bump a n x).ctxs = s.ctxs := by obtain ⟨_, _, _, h⟩ := State.bump_eq s a n x; rw [h]
@[simp] theorem State.bump_rings (s : State) (a n : Nat) (x : Option Nat) : (s.bump a n x).rings = s.rings := by obtain ⟨_, _, _, h⟩ := State.bump_eq s a n x; rw [h]
@[simp] theorem State.bump_cmds (s : State) (a n : Nat) (x : Option Nat) : (s.bump a n x).cmds = s.cmds := by obtain ⟨_, _, _, h⟩ := State.bump_eq s a n x; rw [h]
@[simp] theorem State.bump_cmdNo (s : State) (a n : Nat) (x : Option Nat) : (s.bump a n x).cmdNo = s.cmdNo := by obtain ⟨_, _, _, h⟩ := State.bump_eq s a n x; rw [h]
@[simp] theorem State.bump_colls (s : State) (a n : Nat) (x : Option Nat) : (s.bump a n x).colls = s.colls := by obtain ⟨_, _, _, h⟩ := State.bump_eq s a n x; rw [h]
@[simp] theorem State.bump_closedLedgers (s : State) (a n : Nat) (x : Option Nat) : (s.bump a n x).closedLedgers = s.closedLedgers := by obtain ⟨_, _, _, h⟩ := State.bump_eq s a n x; rw [h]
@[simp] theorem State.bump_fabric (s : State) (a n : Nat) (x : Option Nat) : (s.bump a n x).fabric = s.fabric := by obtain ⟨_, _, _, h⟩ := State.bump_eq s a n x; rw [h]
@[simp] theorem State.bump_host (s : State) (a n : Nat) (x : Option Nat) : (s.bump a n x).host = s.host := by obtain ⟨_, _, _, h⟩ := State.bump_eq s a n x; rw [h]
@[simp] theorem State.bump_sec (s : State) (a n : Nat) (x : Option Nat) : (s.bump a n x).sec = s.sec := by obtain ⟨_, _, _, h⟩ := State.bump_eq s a n x; rw [h]
@[simp] theorem State.bump_factory (s : State) (a n : Nat) (x : Option Nat) : (s.bump a n x).factory = s.factory := by obtain ⟨_, _, _, h⟩ := State.bump_eq s a n x; rw [h]
@[simp] theorem State.bump_fw (s : State) (a n : Nat) (x : Option Nat) : (s.bump a n x).fw = s.fw := by obtain ⟨_, _, _, h⟩ := State.bump_eq s a n x; rw [h]
@[simp] theorem State.bump_units (s : State) (a n : Nat) (x : Option Nat) : (s.bump a n x).units = s.units := by obtain ⟨_, _, _, h⟩ := State.bump_eq s a n x; rw [h]
@[simp] theorem State.bump_board (s : State) (a n : Nat) (x : Option Nat) : (s.bump a n x).board = s.board := by obtain ⟨_, _, _, h⟩ := State.bump_eq s a n x; rw [h]
@[simp] theorem State.bump_regs (s : State) (a n : Nat) (x : Option Nat) : (s.bump a n x).regs = s.regs := by obtain ⟨_, _, _, h⟩ := State.bump_eq s a n x; rw [h]
@[simp] theorem State.bump_ctxCounters (s : State) (a n : Nat) (x : Option Nat) : (s.bump a n x).ctxCounters = s.ctxCounters := by obtain ⟨_, _, _, h⟩ := State.bump_eq s a n x; rw [h]
@[simp] theorem State.bump_fresh (s : State) (a n : Nat) (x : Option Nat) : (s.bump a n x).fresh = s.fresh := by obtain ⟨_, _, _, h⟩ := State.bump_eq s a n x; rw [h]
@[simp] theorem State.bump_pending (s : State) (a n : Nat) (x : Option Nat) : (s.bump a n x).pending = s.pending := by obtain ⟨_, _, _, h⟩ := State.bump_eq s a n x; rw [h]
@[simp] theorem State.bumpCtx_now (s : State) (x n k : Nat) : (s.bumpCtx x n k).now = s.now := by obtain ⟨_, _, _, h⟩ := State.bumpCtx_eq s x n k; rw [h]
@[simp] theorem State.bumpCtx_turn (s : State) (x n k : Nat) : (s.bumpCtx x n k).turn = s.turn := by obtain ⟨_, _, _, h⟩ := State.bumpCtx_eq s x n k; rw [h]
@[simp] theorem State.bumpCtx_params (s : State) (x n k : Nat) : (s.bumpCtx x n k).params = s.params := by obtain ⟨_, _, _, h⟩ := State.bumpCtx_eq s x n k; rw [h]
@[simp] theorem State.bumpCtx_net (s : State) (x n k : Nat) : (s.bumpCtx x n k).net = s.net := by obtain ⟨_, _, _, h⟩ := State.bumpCtx_eq s x n k; rw [h]
@[simp] theorem State.bumpCtx_sched (s : State) (x n k : Nat) : (s.bumpCtx x n k).sched = s.sched := by obtain ⟨_, _, _, h⟩ := State.bumpCtx_eq s x n k; rw [h]
@[simp] theorem State.bumpCtx_gov (s : State) (x n k : Nat) : (s.bumpCtx x n k).gov = s.gov := by obtain ⟨_, _, _, h⟩ := State.bumpCtx_eq s x n k; rw [h]
@[simp] theorem State.bumpCtx_mem (s : State) (x n k : Nat) : (s.bumpCtx x n k).mem = s.mem := by obtain ⟨_, _, _, h⟩ := State.bumpCtx_eq s x n k; rw [h]
@[simp] theorem State.bumpCtx_hostMem (s : State) (x n k : Nat) : (s.bumpCtx x n k).hostMem = s.hostMem := by obtain ⟨_, _, _, h⟩ := State.bumpCtx_eq s x n k; rw [h]
@[simp] theorem State.bumpCtx_cores (s : State) (x n k : Nat) : (s.bumpCtx x n k).cores = s.cores := by obtain ⟨_, _, _, h⟩ := State.bumpCtx_eq s x n k; rw [h]
@[simp] theorem State.bumpCtx_ctxs (s : State) (x n k : Nat) : (s.bumpCtx x n k).ctxs = s.ctxs := by obtain ⟨_, _, _, h⟩ := State.bumpCtx_eq s x n k; rw [h]
@[simp] theorem State.bumpCtx_rings (s : State) (x n k : Nat) : (s.bumpCtx x n k).rings = s.rings := by obtain ⟨_, _, _, h⟩ := State.bumpCtx_eq s x n k; rw [h]
@[simp] theorem State.bumpCtx_cmds (s : State) (x n k : Nat) : (s.bumpCtx x n k).cmds = s.cmds := by obtain ⟨_, _, _, h⟩ := State.bumpCtx_eq s x n k; rw [h]
@[simp] theorem State.bumpCtx_cmdNo (s : State) (x n k : Nat) : (s.bumpCtx x n k).cmdNo = s.cmdNo := by obtain ⟨_, _, _, h⟩ := State.bumpCtx_eq s x n k; rw [h]
@[simp] theorem State.bumpCtx_colls (s : State) (x n k : Nat) : (s.bumpCtx x n k).colls = s.colls := by obtain ⟨_, _, _, h⟩ := State.bumpCtx_eq s x n k; rw [h]
@[simp] theorem State.bumpCtx_closedLedgers (s : State) (x n k : Nat) : (s.bumpCtx x n k).closedLedgers = s.closedLedgers := by obtain ⟨_, _, _, h⟩ := State.bumpCtx_eq s x n k; rw [h]
@[simp] theorem State.bumpCtx_fabric (s : State) (x n k : Nat) : (s.bumpCtx x n k).fabric = s.fabric := by obtain ⟨_, _, _, h⟩ := State.bumpCtx_eq s x n k; rw [h]
@[simp] theorem State.bumpCtx_host (s : State) (x n k : Nat) : (s.bumpCtx x n k).host = s.host := by obtain ⟨_, _, _, h⟩ := State.bumpCtx_eq s x n k; rw [h]
@[simp] theorem State.bumpCtx_sec (s : State) (x n k : Nat) : (s.bumpCtx x n k).sec = s.sec := by obtain ⟨_, _, _, h⟩ := State.bumpCtx_eq s x n k; rw [h]
@[simp] theorem State.bumpCtx_factory (s : State) (x n k : Nat) : (s.bumpCtx x n k).factory = s.factory := by obtain ⟨_, _, _, h⟩ := State.bumpCtx_eq s x n k; rw [h]
@[simp] theorem State.bumpCtx_fw (s : State) (x n k : Nat) : (s.bumpCtx x n k).fw = s.fw := by obtain ⟨_, _, _, h⟩ := State.bumpCtx_eq s x n k; rw [h]
@[simp] theorem State.bumpCtx_units (s : State) (x n k : Nat) : (s.bumpCtx x n k).units = s.units := by obtain ⟨_, _, _, h⟩ := State.bumpCtx_eq s x n k; rw [h]
@[simp] theorem State.bumpCtx_board (s : State) (x n k : Nat) : (s.bumpCtx x n k).board = s.board := by obtain ⟨_, _, _, h⟩ := State.bumpCtx_eq s x n k; rw [h]
@[simp] theorem State.bumpCtx_regs (s : State) (x n k : Nat) : (s.bumpCtx x n k).regs = s.regs := by obtain ⟨_, _, _, h⟩ := State.bumpCtx_eq s x n k; rw [h]
@[simp] theorem State.bumpCtx_counters (s : State) (x n k : Nat) : (s.bumpCtx x n k).counters = s.counters := by obtain ⟨_, _, _, h⟩ := State.bumpCtx_eq s x n k; rw [h]
@[simp] theorem State.bumpCtx_fresh (s : State) (x n k : Nat) : (s.bumpCtx x n k).fresh = s.fresh := by obtain ⟨_, _, _, h⟩ := State.bumpCtx_eq s x n k; rw [h]
@[simp] theorem State.bumpCtx_pending (s : State) (x n k : Nat) : (s.bumpCtx x n k).pending = s.pending := by obtain ⟨_, _, _, h⟩ := State.bumpCtx_eq s x n k; rw [h]
@[simp] theorem State.bumpCore_now (s : State) (c n k : Nat) : (s.bumpCore c n k).now = s.now := by unfold State.bumpCore; (try dsimp only); repeat (first | split | simp)
@[simp] theorem State.bumpCore_turn (s : State) (c n k : Nat) : (s.bumpCore c n k).turn = s.turn := by unfold State.bumpCore; (try dsimp only); repeat (first | split | simp)
@[simp] theorem State.bumpCore_params (s : State) (c n k : Nat) : (s.bumpCore c n k).params = s.params := by unfold State.bumpCore; (try dsimp only); repeat (first | split | simp)
@[simp] theorem State.bumpCore_net (s : State) (c n k : Nat) : (s.bumpCore c n k).net = s.net := by unfold State.bumpCore; (try dsimp only); repeat (first | split | simp)
@[simp] theorem State.bumpCore_sched (s : State) (c n k : Nat) : (s.bumpCore c n k).sched = s.sched := by unfold State.bumpCore; (try dsimp only); repeat (first | split | simp)
@[simp] theorem State.bumpCore_gov (s : State) (c n k : Nat) : (s.bumpCore c n k).gov = s.gov := by unfold State.bumpCore; (try dsimp only); repeat (first | split | simp)
@[simp] theorem State.bumpCore_mem (s : State) (c n k : Nat) : (s.bumpCore c n k).mem = s.mem := by unfold State.bumpCore; (try dsimp only); repeat (first | split | simp)
@[simp] theorem State.bumpCore_hostMem (s : State) (c n k : Nat) : (s.bumpCore c n k).hostMem = s.hostMem := by unfold State.bumpCore; (try dsimp only); repeat (first | split | simp)
@[simp] theorem State.bumpCore_cores (s : State) (c n k : Nat) : (s.bumpCore c n k).cores = s.cores := by unfold State.bumpCore; (try dsimp only); repeat (first | split | simp)
@[simp] theorem State.bumpCore_ctxs (s : State) (c n k : Nat) : (s.bumpCore c n k).ctxs = s.ctxs := by unfold State.bumpCore; (try dsimp only); repeat (first | split | simp)
@[simp] theorem State.bumpCore_rings (s : State) (c n k : Nat) : (s.bumpCore c n k).rings = s.rings := by unfold State.bumpCore; (try dsimp only); repeat (first | split | simp)
@[simp] theorem State.bumpCore_cmds (s : State) (c n k : Nat) : (s.bumpCore c n k).cmds = s.cmds := by unfold State.bumpCore; (try dsimp only); repeat (first | split | simp)
@[simp] theorem State.bumpCore_cmdNo (s : State) (c n k : Nat) : (s.bumpCore c n k).cmdNo = s.cmdNo := by unfold State.bumpCore; (try dsimp only); repeat (first | split | simp)
@[simp] theorem State.bumpCore_colls (s : State) (c n k : Nat) : (s.bumpCore c n k).colls = s.colls := by unfold State.bumpCore; (try dsimp only); repeat (first | split | simp)
@[simp] theorem State.bumpCore_closedLedgers (s : State) (c n k : Nat) : (s.bumpCore c n k).closedLedgers = s.closedLedgers := by unfold State.bumpCore; (try dsimp only); repeat (first | split | simp)
@[simp] theorem State.bumpCore_fabric (s : State) (c n k : Nat) : (s.bumpCore c n k).fabric = s.fabric := by unfold State.bumpCore; (try dsimp only); repeat (first | split | simp)
@[simp] theorem State.bumpCore_host (s : State) (c n k : Nat) : (s.bumpCore c n k).host = s.host := by unfold State.bumpCore; (try dsimp only); repeat (first | split | simp)
@[simp] theorem State.bumpCore_sec (s : State) (c n k : Nat) : (s.bumpCore c n k).sec = s.sec := by unfold State.bumpCore; (try dsimp only); repeat (first | split | simp)
@[simp] theorem State.bumpCore_factory (s : State) (c n k : Nat) : (s.bumpCore c n k).factory = s.factory := by unfold State.bumpCore; (try dsimp only); repeat (first | split | simp)
@[simp] theorem State.bumpCore_fw (s : State) (c n k : Nat) : (s.bumpCore c n k).fw = s.fw := by unfold State.bumpCore; (try dsimp only); repeat (first | split | simp)
@[simp] theorem State.bumpCore_units (s : State) (c n k : Nat) : (s.bumpCore c n k).units = s.units := by unfold State.bumpCore; (try dsimp only); repeat (first | split | simp)
@[simp] theorem State.bumpCore_board (s : State) (c n k : Nat) : (s.bumpCore c n k).board = s.board := by unfold State.bumpCore; (try dsimp only); repeat (first | split | simp)
@[simp] theorem State.bumpCore_regs (s : State) (c n k : Nat) : (s.bumpCore c n k).regs = s.regs := by unfold State.bumpCore; (try dsimp only); repeat (first | split | simp)
@[simp] theorem State.bumpCore_fresh (s : State) (c n k : Nat) : (s.bumpCore c n k).fresh = s.fresh := by unfold State.bumpCore; (try dsimp only); repeat (first | split | simp)
@[simp] theorem State.bumpCore_pending (s : State) (c n k : Nat) : (s.bumpCore c n k).pending = s.pending := by unfold State.bumpCore; (try dsimp only); repeat (first | split | simp)
@[simp] theorem State.bumpArray_now (s : State) (a n k : Nat) (x : Option Nat) : (s.bumpArray a n k x).now = s.now := by unfold State.bumpArray; (try dsimp only); repeat (first | split | simp)
@[simp] theorem State.bumpArray_turn (s : State) (a n k : Nat) (x : Option Nat) : (s.bumpArray a n k x).turn = s.turn := by unfold State.bumpArray; (try dsimp only); repeat (first | split | simp)
@[simp] theorem State.bumpArray_params (s : State) (a n k : Nat) (x : Option Nat) : (s.bumpArray a n k x).params = s.params := by unfold State.bumpArray; (try dsimp only); repeat (first | split | simp)
@[simp] theorem State.bumpArray_net (s : State) (a n k : Nat) (x : Option Nat) : (s.bumpArray a n k x).net = s.net := by unfold State.bumpArray; (try dsimp only); repeat (first | split | simp)
@[simp] theorem State.bumpArray_sched (s : State) (a n k : Nat) (x : Option Nat) : (s.bumpArray a n k x).sched = s.sched := by unfold State.bumpArray; (try dsimp only); repeat (first | split | simp)
@[simp] theorem State.bumpArray_gov (s : State) (a n k : Nat) (x : Option Nat) : (s.bumpArray a n k x).gov = s.gov := by unfold State.bumpArray; (try dsimp only); repeat (first | split | simp)
@[simp] theorem State.bumpArray_mem (s : State) (a n k : Nat) (x : Option Nat) : (s.bumpArray a n k x).mem = s.mem := by unfold State.bumpArray; (try dsimp only); repeat (first | split | simp)
@[simp] theorem State.bumpArray_hostMem (s : State) (a n k : Nat) (x : Option Nat) : (s.bumpArray a n k x).hostMem = s.hostMem := by unfold State.bumpArray; (try dsimp only); repeat (first | split | simp)
@[simp] theorem State.bumpArray_cores (s : State) (a n k : Nat) (x : Option Nat) : (s.bumpArray a n k x).cores = s.cores := by unfold State.bumpArray; (try dsimp only); repeat (first | split | simp)
@[simp] theorem State.bumpArray_ctxs (s : State) (a n k : Nat) (x : Option Nat) : (s.bumpArray a n k x).ctxs = s.ctxs := by unfold State.bumpArray; (try dsimp only); repeat (first | split | simp)
@[simp] theorem State.bumpArray_rings (s : State) (a n k : Nat) (x : Option Nat) : (s.bumpArray a n k x).rings = s.rings := by unfold State.bumpArray; (try dsimp only); repeat (first | split | simp)
@[simp] theorem State.bumpArray_cmds (s : State) (a n k : Nat) (x : Option Nat) : (s.bumpArray a n k x).cmds = s.cmds := by unfold State.bumpArray; (try dsimp only); repeat (first | split | simp)
@[simp] theorem State.bumpArray_cmdNo (s : State) (a n k : Nat) (x : Option Nat) : (s.bumpArray a n k x).cmdNo = s.cmdNo := by unfold State.bumpArray; (try dsimp only); repeat (first | split | simp)
@[simp] theorem State.bumpArray_colls (s : State) (a n k : Nat) (x : Option Nat) : (s.bumpArray a n k x).colls = s.colls := by unfold State.bumpArray; (try dsimp only); repeat (first | split | simp)
@[simp] theorem State.bumpArray_closedLedgers (s : State) (a n k : Nat) (x : Option Nat) : (s.bumpArray a n k x).closedLedgers = s.closedLedgers := by unfold State.bumpArray; (try dsimp only); repeat (first | split | simp)
@[simp] theorem State.bumpArray_fabric (s : State) (a n k : Nat) (x : Option Nat) : (s.bumpArray a n k x).fabric = s.fabric := by unfold State.bumpArray; (try dsimp only); repeat (first | split | simp)
@[simp] theorem State.bumpArray_host (s : State) (a n k : Nat) (x : Option Nat) : (s.bumpArray a n k x).host = s.host := by unfold State.bumpArray; (try dsimp only); repeat (first | split | simp)
@[simp] theorem State.bumpArray_sec (s : State) (a n k : Nat) (x : Option Nat) : (s.bumpArray a n k x).sec = s.sec := by unfold State.bumpArray; (try dsimp only); repeat (first | split | simp)
@[simp] theorem State.bumpArray_factory (s : State) (a n k : Nat) (x : Option Nat) : (s.bumpArray a n k x).factory = s.factory := by unfold State.bumpArray; (try dsimp only); repeat (first | split | simp)
@[simp] theorem State.bumpArray_fw (s : State) (a n k : Nat) (x : Option Nat) : (s.bumpArray a n k x).fw = s.fw := by unfold State.bumpArray; (try dsimp only); repeat (first | split | simp)
@[simp] theorem State.bumpArray_units (s : State) (a n k : Nat) (x : Option Nat) : (s.bumpArray a n k x).units = s.units := by unfold State.bumpArray; (try dsimp only); repeat (first | split | simp)
@[simp] theorem State.bumpArray_board (s : State) (a n k : Nat) (x : Option Nat) : (s.bumpArray a n k x).board = s.board := by unfold State.bumpArray; (try dsimp only); repeat (first | split | simp)
@[simp] theorem State.bumpArray_regs (s : State) (a n k : Nat) (x : Option Nat) : (s.bumpArray a n k x).regs = s.regs := by unfold State.bumpArray; (try dsimp only); repeat (first | split | simp)
@[simp] theorem State.bumpArray_fresh (s : State) (a n k : Nat) (x : Option Nat) : (s.bumpArray a n k x).fresh = s.fresh := by unfold State.bumpArray; (try dsimp only); repeat (first | split | simp)
@[simp] theorem State.bumpArray_pending (s : State) (a n k : Nat) (x : Option Nat) : (s.bumpArray a n k x).pending = s.pending := by unfold State.bumpArray; (try dsimp only); repeat (first | split | simp)
@[simp] theorem State.bumpChannel_now (s : State) (c n k : Nat) : (s.bumpChannel c n k).now = s.now := by unfold State.bumpChannel; (try dsimp only); repeat (first | split | simp)
@[simp] theorem State.bumpChannel_turn (s : State) (c n k : Nat) : (s.bumpChannel c n k).turn = s.turn := by unfold State.bumpChannel; (try dsimp only); repeat (first | split | simp)
@[simp] theorem State.bumpChannel_params (s : State) (c n k : Nat) : (s.bumpChannel c n k).params = s.params := by unfold State.bumpChannel; (try dsimp only); repeat (first | split | simp)
@[simp] theorem State.bumpChannel_net (s : State) (c n k : Nat) : (s.bumpChannel c n k).net = s.net := by unfold State.bumpChannel; (try dsimp only); repeat (first | split | simp)
@[simp] theorem State.bumpChannel_sched (s : State) (c n k : Nat) : (s.bumpChannel c n k).sched = s.sched := by unfold State.bumpChannel; (try dsimp only); repeat (first | split | simp)
@[simp] theorem State.bumpChannel_gov (s : State) (c n k : Nat) : (s.bumpChannel c n k).gov = s.gov := by unfold State.bumpChannel; (try dsimp only); repeat (first | split | simp)
@[simp] theorem State.bumpChannel_mem (s : State) (c n k : Nat) : (s.bumpChannel c n k).mem = s.mem := by unfold State.bumpChannel; (try dsimp only); repeat (first | split | simp)
@[simp] theorem State.bumpChannel_hostMem (s : State) (c n k : Nat) : (s.bumpChannel c n k).hostMem = s.hostMem := by unfold State.bumpChannel; (try dsimp only); repeat (first | split | simp)
@[simp] theorem State.bumpChannel_cores (s : State) (c n k : Nat) : (s.bumpChannel c n k).cores = s.cores := by unfold State.bumpChannel; (try dsimp only); repeat (first | split | simp)
@[simp] theorem State.bumpChannel_ctxs (s : State) (c n k : Nat) : (s.bumpChannel c n k).ctxs = s.ctxs := by unfold State.bumpChannel; (try dsimp only); repeat (first | split | simp)
@[simp] theorem State.bumpChannel_rings (s : State) (c n k : Nat) : (s.bumpChannel c n k).rings = s.rings := by unfold State.bumpChannel; (try dsimp only); repeat (first | split | simp)
@[simp] theorem State.bumpChannel_cmds (s : State) (c n k : Nat) : (s.bumpChannel c n k).cmds = s.cmds := by unfold State.bumpChannel; (try dsimp only); repeat (first | split | simp)
@[simp] theorem State.bumpChannel_cmdNo (s : State) (c n k : Nat) : (s.bumpChannel c n k).cmdNo = s.cmdNo := by unfold State.bumpChannel; (try dsimp only); repeat (first | split | simp)
@[simp] theorem State.bumpChannel_colls (s : State) (c n k : Nat) : (s.bumpChannel c n k).colls = s.colls := by unfold State.bumpChannel; (try dsimp only); repeat (first | split | simp)
@[simp] theorem State.bumpChannel_closedLedgers (s : State) (c n k : Nat) : (s.bumpChannel c n k).closedLedgers = s.closedLedgers := by unfold State.bumpChannel; (try dsimp only); repeat (first | split | simp)
@[simp] theorem State.bumpChannel_fabric (s : State) (c n k : Nat) : (s.bumpChannel c n k).fabric = s.fabric := by unfold State.bumpChannel; (try dsimp only); repeat (first | split | simp)
@[simp] theorem State.bumpChannel_host (s : State) (c n k : Nat) : (s.bumpChannel c n k).host = s.host := by unfold State.bumpChannel; (try dsimp only); repeat (first | split | simp)
@[simp] theorem State.bumpChannel_sec (s : State) (c n k : Nat) : (s.bumpChannel c n k).sec = s.sec := by unfold State.bumpChannel; (try dsimp only); repeat (first | split | simp)
@[simp] theorem State.bumpChannel_factory (s : State) (c n k : Nat) : (s.bumpChannel c n k).factory = s.factory := by unfold State.bumpChannel; (try dsimp only); repeat (first | split | simp)
@[simp] theorem State.bumpChannel_fw (s : State) (c n k : Nat) : (s.bumpChannel c n k).fw = s.fw := by unfold State.bumpChannel; (try dsimp only); repeat (first | split | simp)
@[simp] theorem State.bumpChannel_units (s : State) (c n k : Nat) : (s.bumpChannel c n k).units = s.units := by unfold State.bumpChannel; (try dsimp only); repeat (first | split | simp)
@[simp] theorem State.bumpChannel_board (s : State) (c n k : Nat) : (s.bumpChannel c n k).board = s.board := by unfold State.bumpChannel; (try dsimp only); repeat (first | split | simp)
@[simp] theorem State.bumpChannel_regs (s : State) (c n k : Nat) : (s.bumpChannel c n k).regs = s.regs := by unfold State.bumpChannel; (try dsimp only); repeat (first | split | simp)
@[simp] theorem State.bumpChannel_fresh (s : State) (c n k : Nat) : (s.bumpChannel c n k).fresh = s.fresh := by unfold State.bumpChannel; (try dsimp only); repeat (first | split | simp)
@[simp] theorem State.bumpChannel_pending (s : State) (c n k : Nat) : (s.bumpChannel c n k).pending = s.pending := by unfold State.bumpChannel; (try dsimp only); repeat (first | split | simp)
@[simp] theorem State.bumpPort_now (s : State) (p n k : Nat) : (s.bumpPort p n k).now = s.now := by unfold State.bumpPort; (try dsimp only); repeat (first | split | simp)
@[simp] theorem State.bumpPort_turn (s : State) (p n k : Nat) : (s.bumpPort p n k).turn = s.turn := by unfold State.bumpPort; (try dsimp only); repeat (first | split | simp)
@[simp] theorem State.bumpPort_params (s : State) (p n k : Nat) : (s.bumpPort p n k).params = s.params := by unfold State.bumpPort; (try dsimp only); repeat (first | split | simp)
@[simp] theorem State.bumpPort_net (s : State) (p n k : Nat) : (s.bumpPort p n k).net = s.net := by unfold State.bumpPort; (try dsimp only); repeat (first | split | simp)
@[simp] theorem State.bumpPort_sched (s : State) (p n k : Nat) : (s.bumpPort p n k).sched = s.sched := by unfold State.bumpPort; (try dsimp only); repeat (first | split | simp)
@[simp] theorem State.bumpPort_gov (s : State) (p n k : Nat) : (s.bumpPort p n k).gov = s.gov := by unfold State.bumpPort; (try dsimp only); repeat (first | split | simp)
@[simp] theorem State.bumpPort_mem (s : State) (p n k : Nat) : (s.bumpPort p n k).mem = s.mem := by unfold State.bumpPort; (try dsimp only); repeat (first | split | simp)
@[simp] theorem State.bumpPort_hostMem (s : State) (p n k : Nat) : (s.bumpPort p n k).hostMem = s.hostMem := by unfold State.bumpPort; (try dsimp only); repeat (first | split | simp)
@[simp] theorem State.bumpPort_cores (s : State) (p n k : Nat) : (s.bumpPort p n k).cores = s.cores := by unfold State.bumpPort; (try dsimp only); repeat (first | split | simp)
@[simp] theorem State.bumpPort_ctxs (s : State) (p n k : Nat) : (s.bumpPort p n k).ctxs = s.ctxs := by unfold State.bumpPort; (try dsimp only); repeat (first | split | simp)
@[simp] theorem State.bumpPort_rings (s : State) (p n k : Nat) : (s.bumpPort p n k).rings = s.rings := by unfold State.bumpPort; (try dsimp only); repeat (first | split | simp)
@[simp] theorem State.bumpPort_cmds (s : State) (p n k : Nat) : (s.bumpPort p n k).cmds = s.cmds := by unfold State.bumpPort; (try dsimp only); repeat (first | split | simp)
@[simp] theorem State.bumpPort_cmdNo (s : State) (p n k : Nat) : (s.bumpPort p n k).cmdNo = s.cmdNo := by unfold State.bumpPort; (try dsimp only); repeat (first | split | simp)
@[simp] theorem State.bumpPort_colls (s : State) (p n k : Nat) : (s.bumpPort p n k).colls = s.colls := by unfold State.bumpPort; (try dsimp only); repeat (first | split | simp)
@[simp] theorem State.bumpPort_closedLedgers (s : State) (p n k : Nat) : (s.bumpPort p n k).closedLedgers = s.closedLedgers := by unfold State.bumpPort; (try dsimp only); repeat (first | split | simp)
@[simp] theorem State.bumpPort_fabric (s : State) (p n k : Nat) : (s.bumpPort p n k).fabric = s.fabric := by unfold State.bumpPort; (try dsimp only); repeat (first | split | simp)
@[simp] theorem State.bumpPort_host (s : State) (p n k : Nat) : (s.bumpPort p n k).host = s.host := by unfold State.bumpPort; (try dsimp only); repeat (first | split | simp)
@[simp] theorem State.bumpPort_sec (s : State) (p n k : Nat) : (s.bumpPort p n k).sec = s.sec := by unfold State.bumpPort; (try dsimp only); repeat (first | split | simp)
@[simp] theorem State.bumpPort_factory (s : State) (p n k : Nat) : (s.bumpPort p n k).factory = s.factory := by unfold State.bumpPort; (try dsimp only); repeat (first | split | simp)
@[simp] theorem State.bumpPort_fw (s : State) (p n k : Nat) : (s.bumpPort p n k).fw = s.fw := by unfold State.bumpPort; (try dsimp only); repeat (first | split | simp)
@[simp] theorem State.bumpPort_units (s : State) (p n k : Nat) : (s.bumpPort p n k).units = s.units := by unfold State.bumpPort; (try dsimp only); repeat (first | split | simp)
@[simp] theorem State.bumpPort_board (s : State) (p n k : Nat) : (s.bumpPort p n k).board = s.board := by unfold State.bumpPort; (try dsimp only); repeat (first | split | simp)
@[simp] theorem State.bumpPort_regs (s : State) (p n k : Nat) : (s.bumpPort p n k).regs = s.regs := by unfold State.bumpPort; (try dsimp only); repeat (first | split | simp)
@[simp] theorem State.bumpPort_fresh (s : State) (p n k : Nat) : (s.bumpPort p n k).fresh = s.fresh := by unfold State.bumpPort; (try dsimp only); repeat (first | split | simp)
@[simp] theorem State.bumpPort_pending (s : State) (p n k : Nat) : (s.bumpPort p n k).pending = s.pending := by unfold State.bumpPort; (try dsimp only); repeat (first | split | simp)
@[simp] theorem State.bumpRing_now (s : State) (r : RingId) (n k : Nat) : (s.bumpRing r n k).now = s.now := by unfold State.bumpRing; (try dsimp only); repeat (first | split | simp)
@[simp] theorem State.bumpRing_turn (s : State) (r : RingId) (n k : Nat) : (s.bumpRing r n k).turn = s.turn := by unfold State.bumpRing; (try dsimp only); repeat (first | split | simp)
@[simp] theorem State.bumpRing_params (s : State) (r : RingId) (n k : Nat) : (s.bumpRing r n k).params = s.params := by unfold State.bumpRing; (try dsimp only); repeat (first | split | simp)
@[simp] theorem State.bumpRing_net (s : State) (r : RingId) (n k : Nat) : (s.bumpRing r n k).net = s.net := by unfold State.bumpRing; (try dsimp only); repeat (first | split | simp)
@[simp] theorem State.bumpRing_sched (s : State) (r : RingId) (n k : Nat) : (s.bumpRing r n k).sched = s.sched := by unfold State.bumpRing; (try dsimp only); repeat (first | split | simp)
@[simp] theorem State.bumpRing_gov (s : State) (r : RingId) (n k : Nat) : (s.bumpRing r n k).gov = s.gov := by unfold State.bumpRing; (try dsimp only); repeat (first | split | simp)
@[simp] theorem State.bumpRing_mem (s : State) (r : RingId) (n k : Nat) : (s.bumpRing r n k).mem = s.mem := by unfold State.bumpRing; (try dsimp only); repeat (first | split | simp)
@[simp] theorem State.bumpRing_hostMem (s : State) (r : RingId) (n k : Nat) : (s.bumpRing r n k).hostMem = s.hostMem := by unfold State.bumpRing; (try dsimp only); repeat (first | split | simp)
@[simp] theorem State.bumpRing_cores (s : State) (r : RingId) (n k : Nat) : (s.bumpRing r n k).cores = s.cores := by unfold State.bumpRing; (try dsimp only); repeat (first | split | simp)
@[simp] theorem State.bumpRing_ctxs (s : State) (r : RingId) (n k : Nat) : (s.bumpRing r n k).ctxs = s.ctxs := by unfold State.bumpRing; (try dsimp only); repeat (first | split | simp)
@[simp] theorem State.bumpRing_rings (s : State) (r : RingId) (n k : Nat) : (s.bumpRing r n k).rings = s.rings := by unfold State.bumpRing; (try dsimp only); repeat (first | split | simp)
@[simp] theorem State.bumpRing_cmds (s : State) (r : RingId) (n k : Nat) : (s.bumpRing r n k).cmds = s.cmds := by unfold State.bumpRing; (try dsimp only); repeat (first | split | simp)
@[simp] theorem State.bumpRing_cmdNo (s : State) (r : RingId) (n k : Nat) : (s.bumpRing r n k).cmdNo = s.cmdNo := by unfold State.bumpRing; (try dsimp only); repeat (first | split | simp)
@[simp] theorem State.bumpRing_colls (s : State) (r : RingId) (n k : Nat) : (s.bumpRing r n k).colls = s.colls := by unfold State.bumpRing; (try dsimp only); repeat (first | split | simp)
@[simp] theorem State.bumpRing_closedLedgers (s : State) (r : RingId) (n k : Nat) : (s.bumpRing r n k).closedLedgers = s.closedLedgers := by unfold State.bumpRing; (try dsimp only); repeat (first | split | simp)
@[simp] theorem State.bumpRing_fabric (s : State) (r : RingId) (n k : Nat) : (s.bumpRing r n k).fabric = s.fabric := by unfold State.bumpRing; (try dsimp only); repeat (first | split | simp)
@[simp] theorem State.bumpRing_host (s : State) (r : RingId) (n k : Nat) : (s.bumpRing r n k).host = s.host := by unfold State.bumpRing; (try dsimp only); repeat (first | split | simp)
@[simp] theorem State.bumpRing_sec (s : State) (r : RingId) (n k : Nat) : (s.bumpRing r n k).sec = s.sec := by unfold State.bumpRing; (try dsimp only); repeat (first | split | simp)
@[simp] theorem State.bumpRing_factory (s : State) (r : RingId) (n k : Nat) : (s.bumpRing r n k).factory = s.factory := by unfold State.bumpRing; (try dsimp only); repeat (first | split | simp)
@[simp] theorem State.bumpRing_fw (s : State) (r : RingId) (n k : Nat) : (s.bumpRing r n k).fw = s.fw := by unfold State.bumpRing; (try dsimp only); repeat (first | split | simp)
@[simp] theorem State.bumpRing_units (s : State) (r : RingId) (n k : Nat) : (s.bumpRing r n k).units = s.units := by unfold State.bumpRing; (try dsimp only); repeat (first | split | simp)
@[simp] theorem State.bumpRing_board (s : State) (r : RingId) (n k : Nat) : (s.bumpRing r n k).board = s.board := by unfold State.bumpRing; (try dsimp only); repeat (first | split | simp)
@[simp] theorem State.bumpRing_regs (s : State) (r : RingId) (n k : Nat) : (s.bumpRing r n k).regs = s.regs := by unfold State.bumpRing; (try dsimp only); repeat (first | split | simp)
@[simp] theorem State.bumpRing_fresh (s : State) (r : RingId) (n k : Nat) : (s.bumpRing r n k).fresh = s.fresh := by unfold State.bumpRing; (try dsimp only); repeat (first | split | simp)
@[simp] theorem State.bumpRing_pending (s : State) (r : RingId) (n k : Nat) : (s.bumpRing r n k).pending = s.pending := by unfold State.bumpRing; (try dsimp only); repeat (first | split | simp)
@[simp] theorem State.bumpFw_now (s : State) (x n k : Nat) : (s.bumpFw x n k).now = s.now := by unfold State.bumpFw; (try dsimp only); repeat (first | split | simp)
@[simp] theorem State.bumpFw_turn (s : State) (x n k : Nat) : (s.bumpFw x n k).turn = s.turn := by unfold State.bumpFw; (try dsimp only); repeat (first | split | simp)
@[simp] theorem State.bumpFw_params (s : State) (x n k : Nat) : (s.bumpFw x n k).params = s.params := by unfold State.bumpFw; (try dsimp only); repeat (first | split | simp)
@[simp] theorem State.bumpFw_net (s : State) (x n k : Nat) : (s.bumpFw x n k).net = s.net := by unfold State.bumpFw; (try dsimp only); repeat (first | split | simp)
@[simp] theorem State.bumpFw_sched (s : State) (x n k : Nat) : (s.bumpFw x n k).sched = s.sched := by unfold State.bumpFw; (try dsimp only); repeat (first | split | simp)
@[simp] theorem State.bumpFw_gov (s : State) (x n k : Nat) : (s.bumpFw x n k).gov = s.gov := by unfold State.bumpFw; (try dsimp only); repeat (first | split | simp)
@[simp] theorem State.bumpFw_mem (s : State) (x n k : Nat) : (s.bumpFw x n k).mem = s.mem := by unfold State.bumpFw; (try dsimp only); repeat (first | split | simp)
@[simp] theorem State.bumpFw_hostMem (s : State) (x n k : Nat) : (s.bumpFw x n k).hostMem = s.hostMem := by unfold State.bumpFw; (try dsimp only); repeat (first | split | simp)
@[simp] theorem State.bumpFw_cores (s : State) (x n k : Nat) : (s.bumpFw x n k).cores = s.cores := by unfold State.bumpFw; (try dsimp only); repeat (first | split | simp)
@[simp] theorem State.bumpFw_ctxs (s : State) (x n k : Nat) : (s.bumpFw x n k).ctxs = s.ctxs := by unfold State.bumpFw; (try dsimp only); repeat (first | split | simp)
@[simp] theorem State.bumpFw_rings (s : State) (x n k : Nat) : (s.bumpFw x n k).rings = s.rings := by unfold State.bumpFw; (try dsimp only); repeat (first | split | simp)
@[simp] theorem State.bumpFw_cmds (s : State) (x n k : Nat) : (s.bumpFw x n k).cmds = s.cmds := by unfold State.bumpFw; (try dsimp only); repeat (first | split | simp)
@[simp] theorem State.bumpFw_cmdNo (s : State) (x n k : Nat) : (s.bumpFw x n k).cmdNo = s.cmdNo := by unfold State.bumpFw; (try dsimp only); repeat (first | split | simp)
@[simp] theorem State.bumpFw_colls (s : State) (x n k : Nat) : (s.bumpFw x n k).colls = s.colls := by unfold State.bumpFw; (try dsimp only); repeat (first | split | simp)
@[simp] theorem State.bumpFw_closedLedgers (s : State) (x n k : Nat) : (s.bumpFw x n k).closedLedgers = s.closedLedgers := by unfold State.bumpFw; (try dsimp only); repeat (first | split | simp)
@[simp] theorem State.bumpFw_fabric (s : State) (x n k : Nat) : (s.bumpFw x n k).fabric = s.fabric := by unfold State.bumpFw; (try dsimp only); repeat (first | split | simp)
@[simp] theorem State.bumpFw_host (s : State) (x n k : Nat) : (s.bumpFw x n k).host = s.host := by unfold State.bumpFw; (try dsimp only); repeat (first | split | simp)
@[simp] theorem State.bumpFw_sec (s : State) (x n k : Nat) : (s.bumpFw x n k).sec = s.sec := by unfold State.bumpFw; (try dsimp only); repeat (first | split | simp)
@[simp] theorem State.bumpFw_factory (s : State) (x n k : Nat) : (s.bumpFw x n k).factory = s.factory := by unfold State.bumpFw; (try dsimp only); repeat (first | split | simp)
@[simp] theorem State.bumpFw_fw (s : State) (x n k : Nat) : (s.bumpFw x n k).fw = s.fw := by unfold State.bumpFw; (try dsimp only); repeat (first | split | simp)
@[simp] theorem State.bumpFw_units (s : State) (x n k : Nat) : (s.bumpFw x n k).units = s.units := by unfold State.bumpFw; (try dsimp only); repeat (first | split | simp)
@[simp] theorem State.bumpFw_board (s : State) (x n k : Nat) : (s.bumpFw x n k).board = s.board := by unfold State.bumpFw; (try dsimp only); repeat (first | split | simp)
@[simp] theorem State.bumpFw_regs (s : State) (x n k : Nat) : (s.bumpFw x n k).regs = s.regs := by unfold State.bumpFw; (try dsimp only); repeat (first | split | simp)
@[simp] theorem State.bumpFw_fresh (s : State) (x n k : Nat) : (s.bumpFw x n k).fresh = s.fresh := by unfold State.bumpFw; (try dsimp only); repeat (first | split | simp)
@[simp] theorem State.bumpFw_pending (s : State) (x n k : Nat) : (s.bumpFw x n k).pending = s.pending := by unfold State.bumpFw; (try dsimp only); repeat (first | split | simp)
@[simp] theorem State.bumpQuad_now (s : State) (q n k : Nat) : (s.bumpQuad q n k).now = s.now := by unfold State.bumpQuad; (try dsimp only); repeat (first | split | simp)
@[simp] theorem State.bumpQuad_turn (s : State) (q n k : Nat) : (s.bumpQuad q n k).turn = s.turn := by unfold State.bumpQuad; (try dsimp only); repeat (first | split | simp)
@[simp] theorem State.bumpQuad_params (s : State) (q n k : Nat) : (s.bumpQuad q n k).params = s.params := by unfold State.bumpQuad; (try dsimp only); repeat (first | split | simp)
@[simp] theorem State.bumpQuad_net (s : State) (q n k : Nat) : (s.bumpQuad q n k).net = s.net := by unfold State.bumpQuad; (try dsimp only); repeat (first | split | simp)
@[simp] theorem State.bumpQuad_sched (s : State) (q n k : Nat) : (s.bumpQuad q n k).sched = s.sched := by unfold State.bumpQuad; (try dsimp only); repeat (first | split | simp)
@[simp] theorem State.bumpQuad_gov (s : State) (q n k : Nat) : (s.bumpQuad q n k).gov = s.gov := by unfold State.bumpQuad; (try dsimp only); repeat (first | split | simp)
@[simp] theorem State.bumpQuad_mem (s : State) (q n k : Nat) : (s.bumpQuad q n k).mem = s.mem := by unfold State.bumpQuad; (try dsimp only); repeat (first | split | simp)
@[simp] theorem State.bumpQuad_hostMem (s : State) (q n k : Nat) : (s.bumpQuad q n k).hostMem = s.hostMem := by unfold State.bumpQuad; (try dsimp only); repeat (first | split | simp)
@[simp] theorem State.bumpQuad_cores (s : State) (q n k : Nat) : (s.bumpQuad q n k).cores = s.cores := by unfold State.bumpQuad; (try dsimp only); repeat (first | split | simp)
@[simp] theorem State.bumpQuad_ctxs (s : State) (q n k : Nat) : (s.bumpQuad q n k).ctxs = s.ctxs := by unfold State.bumpQuad; (try dsimp only); repeat (first | split | simp)
@[simp] theorem State.bumpQuad_rings (s : State) (q n k : Nat) : (s.bumpQuad q n k).rings = s.rings := by unfold State.bumpQuad; (try dsimp only); repeat (first | split | simp)
@[simp] theorem State.bumpQuad_cmds (s : State) (q n k : Nat) : (s.bumpQuad q n k).cmds = s.cmds := by unfold State.bumpQuad; (try dsimp only); repeat (first | split | simp)
@[simp] theorem State.bumpQuad_cmdNo (s : State) (q n k : Nat) : (s.bumpQuad q n k).cmdNo = s.cmdNo := by unfold State.bumpQuad; (try dsimp only); repeat (first | split | simp)
@[simp] theorem State.bumpQuad_colls (s : State) (q n k : Nat) : (s.bumpQuad q n k).colls = s.colls := by unfold State.bumpQuad; (try dsimp only); repeat (first | split | simp)
@[simp] theorem State.bumpQuad_closedLedgers (s : State) (q n k : Nat) : (s.bumpQuad q n k).closedLedgers = s.closedLedgers := by unfold State.bumpQuad; (try dsimp only); repeat (first | split | simp)
@[simp] theorem State.bumpQuad_fabric (s : State) (q n k : Nat) : (s.bumpQuad q n k).fabric = s.fabric := by unfold State.bumpQuad; (try dsimp only); repeat (first | split | simp)
@[simp] theorem State.bumpQuad_host (s : State) (q n k : Nat) : (s.bumpQuad q n k).host = s.host := by unfold State.bumpQuad; (try dsimp only); repeat (first | split | simp)
@[simp] theorem State.bumpQuad_sec (s : State) (q n k : Nat) : (s.bumpQuad q n k).sec = s.sec := by unfold State.bumpQuad; (try dsimp only); repeat (first | split | simp)
@[simp] theorem State.bumpQuad_factory (s : State) (q n k : Nat) : (s.bumpQuad q n k).factory = s.factory := by unfold State.bumpQuad; (try dsimp only); repeat (first | split | simp)
@[simp] theorem State.bumpQuad_fw (s : State) (q n k : Nat) : (s.bumpQuad q n k).fw = s.fw := by unfold State.bumpQuad; (try dsimp only); repeat (first | split | simp)
@[simp] theorem State.bumpQuad_units (s : State) (q n k : Nat) : (s.bumpQuad q n k).units = s.units := by unfold State.bumpQuad; (try dsimp only); repeat (first | split | simp)
@[simp] theorem State.bumpQuad_board (s : State) (q n k : Nat) : (s.bumpQuad q n k).board = s.board := by unfold State.bumpQuad; (try dsimp only); repeat (first | split | simp)
@[simp] theorem State.bumpQuad_regs (s : State) (q n k : Nat) : (s.bumpQuad q n k).regs = s.regs := by unfold State.bumpQuad; (try dsimp only); repeat (first | split | simp)
@[simp] theorem State.bumpQuad_fresh (s : State) (q n k : Nat) : (s.bumpQuad q n k).fresh = s.fresh := by unfold State.bumpQuad; (try dsimp only); repeat (first | split | simp)
@[simp] theorem State.bumpQuad_pending (s : State) (q n k : Nat) : (s.bumpQuad q n k).pending = s.pending := by unfold State.bumpQuad; (try dsimp only); repeat (first | split | simp)
@[simp] theorem State.bumpLink_now (s : State) (r : Nat) : (s.bumpLink r).now = s.now := by unfold State.bumpLink; (try dsimp only); repeat (first | split | simp)
@[simp] theorem State.bumpLink_turn (s : State) (r : Nat) : (s.bumpLink r).turn = s.turn := by unfold State.bumpLink; (try dsimp only); repeat (first | split | simp)
@[simp] theorem State.bumpLink_params (s : State) (r : Nat) : (s.bumpLink r).params = s.params := by unfold State.bumpLink; (try dsimp only); repeat (first | split | simp)
@[simp] theorem State.bumpLink_net (s : State) (r : Nat) : (s.bumpLink r).net = s.net := by unfold State.bumpLink; (try dsimp only); repeat (first | split | simp)
@[simp] theorem State.bumpLink_sched (s : State) (r : Nat) : (s.bumpLink r).sched = s.sched := by unfold State.bumpLink; (try dsimp only); repeat (first | split | simp)
@[simp] theorem State.bumpLink_gov (s : State) (r : Nat) : (s.bumpLink r).gov = s.gov := by unfold State.bumpLink; (try dsimp only); repeat (first | split | simp)
@[simp] theorem State.bumpLink_mem (s : State) (r : Nat) : (s.bumpLink r).mem = s.mem := by unfold State.bumpLink; (try dsimp only); repeat (first | split | simp)
@[simp] theorem State.bumpLink_hostMem (s : State) (r : Nat) : (s.bumpLink r).hostMem = s.hostMem := by unfold State.bumpLink; (try dsimp only); repeat (first | split | simp)
@[simp] theorem State.bumpLink_cores (s : State) (r : Nat) : (s.bumpLink r).cores = s.cores := by unfold State.bumpLink; (try dsimp only); repeat (first | split | simp)
@[simp] theorem State.bumpLink_ctxs (s : State) (r : Nat) : (s.bumpLink r).ctxs = s.ctxs := by unfold State.bumpLink; (try dsimp only); repeat (first | split | simp)
@[simp] theorem State.bumpLink_rings (s : State) (r : Nat) : (s.bumpLink r).rings = s.rings := by unfold State.bumpLink; (try dsimp only); repeat (first | split | simp)
@[simp] theorem State.bumpLink_cmds (s : State) (r : Nat) : (s.bumpLink r).cmds = s.cmds := by unfold State.bumpLink; (try dsimp only); repeat (first | split | simp)
@[simp] theorem State.bumpLink_cmdNo (s : State) (r : Nat) : (s.bumpLink r).cmdNo = s.cmdNo := by unfold State.bumpLink; (try dsimp only); repeat (first | split | simp)
@[simp] theorem State.bumpLink_colls (s : State) (r : Nat) : (s.bumpLink r).colls = s.colls := by unfold State.bumpLink; (try dsimp only); repeat (first | split | simp)
@[simp] theorem State.bumpLink_closedLedgers (s : State) (r : Nat) : (s.bumpLink r).closedLedgers = s.closedLedgers := by unfold State.bumpLink; (try dsimp only); repeat (first | split | simp)
@[simp] theorem State.bumpLink_fabric (s : State) (r : Nat) : (s.bumpLink r).fabric = s.fabric := by unfold State.bumpLink; (try dsimp only); repeat (first | split | simp)
@[simp] theorem State.bumpLink_host (s : State) (r : Nat) : (s.bumpLink r).host = s.host := by unfold State.bumpLink; (try dsimp only); repeat (first | split | simp)
@[simp] theorem State.bumpLink_sec (s : State) (r : Nat) : (s.bumpLink r).sec = s.sec := by unfold State.bumpLink; (try dsimp only); repeat (first | split | simp)
@[simp] theorem State.bumpLink_factory (s : State) (r : Nat) : (s.bumpLink r).factory = s.factory := by unfold State.bumpLink; (try dsimp only); repeat (first | split | simp)
@[simp] theorem State.bumpLink_fw (s : State) (r : Nat) : (s.bumpLink r).fw = s.fw := by unfold State.bumpLink; (try dsimp only); repeat (first | split | simp)
@[simp] theorem State.bumpLink_units (s : State) (r : Nat) : (s.bumpLink r).units = s.units := by unfold State.bumpLink; (try dsimp only); repeat (first | split | simp)
@[simp] theorem State.bumpLink_board (s : State) (r : Nat) : (s.bumpLink r).board = s.board := by unfold State.bumpLink; (try dsimp only); repeat (first | split | simp)
@[simp] theorem State.bumpLink_regs (s : State) (r : Nat) : (s.bumpLink r).regs = s.regs := by unfold State.bumpLink; (try dsimp only); repeat (first | split | simp)
@[simp] theorem State.bumpLink_fresh (s : State) (r : Nat) : (s.bumpLink r).fresh = s.fresh := by unfold State.bumpLink; (try dsimp only); repeat (first | split | simp)
@[simp] theorem State.bumpLink_pending (s : State) (r : Nat) : (s.bumpLink r).pending = s.pending := by unfold State.bumpLink; (try dsimp only); repeat (first | split | simp)

end Sys2Proof.Machine
end

