-- ==== Sys2Proof/Laws/Fetch.lean ====
section
/-! SUPPORT. What a read of device memory can change: one predicate, that every step of the read keeps, and what the fetch of an instruction and
the walk of the tables leave. -/

namespace Sys2Proof.Machine

/-- A read of memory has led from s to t: it has touched memory, counters, events, and what contexts, collections, commands and firmware keep about
poison and errors, and nothing else (R242, R245, R263); of a context it marks poison in generations and catalogues only. -/
structure State.ReadLike (s t : State) : Prop where
  now : t.now = s.now
  turn : t.turn = s.turn
  params : t.params = s.params
  net : t.net = s.net
  sched : t.sched = s.sched
  gov : t.gov = s.gov
  hostMem : t.hostMem = s.hostMem
  cores : t.cores = s.cores
  rings : t.rings = s.rings
  cmdNo : t.cmdNo = s.cmdNo
  closedLedgers : t.closedLedgers = s.closedLedgers
  sec : t.sec = s.sec
  factory : t.factory = s.factory
  units : t.units = s.units
  board : t.board = s.board
  regs : t.regs = s.regs
  pending : t.pending = s.pending
  ctx : ∀ x, t.ctx x = { s.ctx x with gens := (t.ctx x).gens, seqs := (t.ctx x).seqs }

theorem State.ReadLike.trans {s t u : State} (a : s.ReadLike t) (b : t.ReadLike u) : s.ReadLike u where
  now := b.now.trans a.now
  turn := b.turn.trans a.turn
  params := b.params.trans a.params
  net := b.net.trans a.net
  sched := b.sched.trans a.sched
  gov := b.gov.trans a.gov
  hostMem := b.hostMem.trans a.hostMem
  cores := b.cores.trans a.cores
  rings := b.rings.trans a.rings
  cmdNo := b.cmdNo.trans a.cmdNo
  closedLedgers := b.closedLedgers.trans a.closedLedgers
  sec := b.sec.trans a.sec
  factory := b.factory.trans a.factory
  units := b.units.trans a.units
  board := b.board.trans a.board
  regs := b.regs.trans a.regs
  pending := b.pending.trans a.pending
  ctx x := by rw [b.ctx x, a.ctx x]

/-- The same, and where no error pattern waits in memory, no stored byte and no tag byte has changed. -/
structure State.ReadOnly (s t : State) : Prop extends s.ReadLike t where
  bytes : s.mem.upsets = [] → t.mem.upsets = [] ∧ t.mem.data = s.mem.data ∧ t.mem.tags = s.mem.tags

theorem State.ReadOnly.refl (s : State) : s.ReadOnly s := ⟨by constructor <;> intros <;> rfl, fun h => ⟨h, rfl, rfl⟩⟩

theorem State.ReadOnly.trans {s t u : State} (a : s.ReadOnly t) (b : t.ReadOnly u) : s.ReadOnly u where
  toReadLike := a.toReadLike.trans b.toReadLike
  bytes h := by
    obtain ⟨a1, a2, a3⟩ := a.bytes h
    obtain ⟨b1, b2, b3⟩ := b.bytes a1
    exact ⟨b1, b2.trans a2, b3.trans a3⟩

theorem State.readOnly_raise (s : State) (r : EvRec) : s.ReadOnly (s.raise r) := by
  exact ⟨by constructor <;> simp [State.ctx], fun h => by simp [h]⟩

theorem State.readOnly_bumpChannel (s : State) (c n k : Nat) : s.ReadOnly (s.bumpChannel c n k) := by
  exact ⟨by constructor <;> simp [State.ctx], fun h => by simp [h]⟩

theorem State.readOnly_bumpCtx (s : State) (x n k : Nat) : s.ReadOnly (s.bumpCtx x n k) := by
  exact ⟨by constructor <;> simp [State.ctx], fun h => by simp [h]⟩

theorem State.readOnly_bumpFw (s : State) (x n k : Nat) : s.ReadOnly (s.bumpFw x n k) := by
  exact ⟨by constructor <;> simp [State.ctx], fun h => by simp [h]⟩

theorem State.readOnly_modCtx (s : State) (x : Nat) (f : Ctx → Ctx) (hf : ∀ k, f k = { k with gens := (f k).gens, seqs := (f k).seqs }) :
    s.ReadOnly (s.modCtx x f) := by
  refine ⟨?_, fun h => by simp [h]⟩
  constructor
  case ctx =>
    intro y
    by_cases h : y = x
    · subst h
      rw [State.ctx_modCtx_same]
      exact hf _
    · rw [State.ctx_modCtx_ne s f h]
  all_goals simp

theorem State.readOnly_modCmd (s : State) (h : Word) (f : Cmd → Cmd) : s.ReadOnly (s.modCmd h f) := by
  exact ⟨by constructor <;> simp [State.ctx], fun h => by simp [h]⟩

theorem State.readOnly_backInvalidate (s : State) (a : Nat) : s.ReadOnly (s.backInvalidate a) := by
  unfold State.backInvalidate
  dsimp only
  split
  · exact .refl s
  · exact ⟨by constructor <;> simp [State.ctx], fun h => by simp [h]⟩

theorem State.readOnly_foundPoison (s : State) (a : Nat) : s.ReadOnly (s.foundPoison a) := by
  unfold State.foundPoison
  split
  · split
    · exact s.readOnly_modCtx _ _ fun _ => rfl
    · exact .refl s
  · exact (s.readOnly_modCtx _ _ fun _ => rfl).trans (State.readOnly_bumpFw _ _ _ _)
  · exact ⟨by constructor <;> simp [State.ctx], fun h => by simp [h]⟩
  · exact .refl s

theorem State.readOnly_retire (s : State) (a : Nat) : s.ReadOnly (s.retire a) := by
  unfold State.retire
  dsimp only
  split
  · exact .refl s
  · exact ⟨by constructor <;> simp [State.ctx], fun h => by simp [h]⟩

theorem State.readOnly_bumpOwner (s : State) (a n : Nat) : s.ReadOnly (s.bumpOwner a n) := by
  unfold State.bumpOwner
  split
  · exact s.readOnly_bumpCtx _ _ _
  · exact .refl s

theorem State.readOnly_noteMismatch (s : State) (x : Option Nat) (h : Option Word) (a : Nat) : s.ReadOnly (s.noteMismatch x h a) := by
  unfold State.noteMismatch
  split
  · split
    · exact .refl s
    · exact (s.readOnly_modCmd _ _).trans (State.readOnly_raise _ _)
  · dsimp only
    split
    · exact .refl s
    · refine State.ReadOnly.trans (t := { s with mem := { s.mem with mismTurn := s.mem.mismTurn ++ [(s.pageOwner a).getD 256] } }) ?_
        (State.readOnly_raise _ _)
      exact ⟨by constructor <;> simp [State.ctx], fun h => by simp [h]⟩

theorem State.readOnly_keyMismatch (s : State) (x : Option Nat) (h : Option Word) (a : Nat) : s.ReadOnly (s.keyMismatch x h a) := by
  unfold State.keyMismatch
  exact ((s.readOnly_bumpChannel _ _ _).trans (State.readOnly_bumpOwner _ _ _)).trans (State.readOnly_noteMismatch _ _ _ _)

theorem State.readOnly_emit (s : State) (o : Out) : s.ReadOnly (s.emit o) :=
  ⟨by constructor <;> intros <;> rfl, fun h => ⟨h, rfl, rfl⟩⟩

theorem State.readOnly_noteAts (s : State) (f a : Nat) : s.ReadOnly (s.noteAts f a) := by
  unfold State.noteAts
  dsimp only
  split
  · exact .refl s
  · exact ⟨by constructor <;> intros <;> rfl, fun h => ⟨h, rfl, rfl⟩⟩

theorem State.readOnly_hostAsk (s : State) (f a n : Nat) (w c : Bool) : s.ReadOnly (s.hostAsk f a n w c) := by
  unfold State.hostAsk
  exact (s.readOnly_noteAts f a).trans (State.readOnly_emit _ _)

theorem State.readOnly_tierAsk (s : State) (a n : Nat) (w : Bool) : s.ReadOnly (s.tierAsk a n w) := by
  unfold State.tierAsk
  split
  · exact .refl s
  · exact s.readOnly_hostAsk _ _ _ _ _

theorem State.readOnly_countCorrected (s : State) (a : Nat) : s.ReadOnly (s.countCorrected a) := by
  unfold State.countCorrected
  dsimp only
  have h0 := s.readOnly_bumpChannel (s.channelOf a) 0 1
  generalize s.bumpChannel (s.channelOf a) 0 1 = w at h0 ⊢
  refine h0.trans ?_
  split
  · refine State.ReadOnly.trans ?_ (State.readOnly_retire _ _)
    exact ⟨by constructor <;> simp [State.ctx], fun h => by simp [h]⟩
  · exact ⟨by constructor <;> simp [State.ctx], fun h => by simp [h]⟩

/-- A change of a codeword in place. -/
theorem State.readLike_mem (s : State) (m : Mem) (f : Nat) : s.ReadLike { s with mem := m, fresh := f } := by constructor <;> intros <;> rfl

theorem State.readLike_applyErrors (s : State) (r a : Nat) (err : List (Nat × Byte)) : s.ReadLike (s.applyErrors r a err) := by
  unfold State.applyErrors
  dsimp only
  have kb := (s.readOnly_backInvalidate a).toReadLike
  generalize s.backInvalidate a = u at kb ⊢
  refine kb.trans ?_
  have kl : ∀ l, u.ReadLike (u.leave a l) := by
    intro l
    unfold State.leave
    dsimp only
    split
    · exact (State.ReadOnly.refl u).toReadLike
    · exact u.readLike_mem _ _
  split
  · refine State.ReadLike.trans ?_ (State.readOnly_retire _ _).toReadLike
    refine State.ReadLike.trans ?_ (State.readOnly_raise _ _).toReadLike
    refine State.ReadLike.trans ?_ (State.readOnly_bumpOwner _ _ _).toReadLike
    refine State.ReadLike.trans ?_ (State.readOnly_foundPoison _ _).toReadLike
    refine State.ReadLike.trans ?_ (State.readOnly_bumpChannel _ _ _ _).toReadLike
    exact u.readLike_mem _ u.fresh
  · split
    · exact (kl _).trans (State.readOnly_countCorrected _ _).toReadLike
    · exact kl _

/-- The controller's work on a codeword that carries an error pattern changes stored bytes; the rest is as in any read. -/
theorem State.readOnly_settleCw (s : State) (r a : Nat) : s.ReadOnly (s.settleCw r a) := by
  unfold State.settleCw
  split
  · exact .refl s
  · next err he =>
    refine ⟨(s.readLike_mem _ s.fresh).trans (State.readLike_applyErrors _ _ _ _), fun h0 => ?_⟩
    rw [h0] at he
    exact absurd he (by simp [Tab.opt])

theorem State.readOnly_readPiece (s : State) (x : Option Nat) (h : Option Word) (q : Req) (p : Nat × Nat × Nat) :
    s.ReadOnly (s.readPiece x h q p).1 := by
  unfold State.readPiece
  split
  · exact .refl s
  · dsimp only
    have k := ((s.readOnly_backInvalidate p.1).trans (State.readOnly_settleCw _ q.unit p.1)).trans (State.readOnly_tierAsk _ p.1 p.2.1 false)
    generalize State.tierAsk (State.settleCw (s.backInvalidate p.1) q.unit p.1) p.1 p.2.1 false = u at k ⊢
    refine k.trans ?_
    have k1 : u.ReadOnly (if (u.readCw p.2.2 p.1).2.2 then u.keyMismatch x h p.1 else u) := by
      split
      · exact u.readOnly_keyMismatch _ _ _
      · exact .refl u
    generalize (if (u.readCw p.2.2 p.1).2.2 = true then u.keyMismatch x h p.1 else u) = v at k1 ⊢
    refine k1.trans ?_
    split
    · exact (State.readOnly_bumpChannel _ _ _ _).trans (State.readOnly_foundPoison _ _)
    · exact .refl _

/-- The narrow queue counts granules. -/
theorem State.readOnly_countQueue (s : State) (q : Req) (l : List (Nat × Nat × Nat)) (hq : q.wide = false) : s.ReadOnly (s.countQueue q l) := by
  unfold State.countQueue
  rw [hq]
  dsimp only
  have k : ∀ (l : List (Nat × Nat × Nat)) (u : State), s.ReadOnly u →
      s.ReadOnly (l.foldl (fun s p => s.bumpChannel (s.channelOf p.1) 7 1) u) := by
    intro l
    induction l with
    | nil => exact fun u h => h
    | cons p l ih => exact fun u h => ih _ (h.trans (u.readOnly_bumpChannel _ _ _))
  exact k l s (.refl s)

/-- A read over the narrow queue, whatever its pieces (R242, R245, R251). -/
theorem State.readOnly_readPieces (s : State) (x : Option Nat) (h : Option Word) (q : Req) (l : List (Nat × Nat × Nat)) (hq : q.wide = false) :
    s.ReadOnly (s.readPieces x h q l).1 := by
  unfold State.readPieces
  have k : ∀ (l : List (Nat × Nat × Nat)) (a : State × Bytes × Bool), s.ReadOnly a.1 →
      s.ReadOnly (l.foldl (fun a p => let r := a.1.readPiece x h q p; (r.1, a.2.1 ++ r.2.1, a.2.2 || r.2.2)) a).1 := by
    intro l
    induction l with
    | nil => exact fun a h => h
    | cons p l ih => exact fun a k => ih _ (k.trans (a.1.readOnly_readPiece _ _ _ _))
  exact k l _ (s.readOnly_countQueue q l hq)

/-- A core's fetch or walk has led from s to t: a read, and a change of core c that is no more than its instruction buffer and its translations. -/
structure State.Fetched (s t : State) (c : Nat) : Prop where
  read : s.ReadOnly { t with cores := s.cores }
  core : t.core c = { s.core c with ibuf := (t.core c).ibuf, tlb := (t.core c).tlb }
  others : ∀ d, d ≠ c → t.core d = s.core d

theorem State.Fetched.refl (s : State) (c : Nat) : s.Fetched s c := ⟨.refl s, rfl, fun _ _ => rfl⟩

theorem State.Fetched.of_readOnly {s t : State} (h : s.ReadOnly t) (c : Nat) : s.Fetched t c := by
  have e : ∀ d, t.core d = s.core d := fun d => by rw [State.core, State.core, h.cores]
  refine ⟨?_, by rw [e c], fun d _ => e d⟩
  have : ({ t with cores := s.cores } : State) = t := by rw [← h.cores]
  rw [this]
  exact h

theorem State.Fetched.trans {s t u : State} {c : Nat} (a : s.Fetched t c) (b : t.Fetched u c) : s.Fetched u c := by
  have e : s.ReadOnly { u with cores := s.cores } :=
    { a.read.trans (u := { u with cores := s.cores })
        { b.read with cores := rfl } with cores := rfl }
  refine ⟨e, ?_, fun d hd => (b.others d hd).trans (a.others d hd)⟩
  rw [b.core, a.core]

theorem State.fetched_tlb (s : State) (c : Nat) (l : CoreSt → List Nat) : s.Fetched (s.modCore c fun k => { k with tlb := l k }) c := by
  refine ⟨State.ReadOnly.refl s, ?_, fun d hd => State.core_modCore_ne _ _ hd⟩
  rw [State.core_modCore_same]

theorem State.fetched_ibuf (s : State) (c : Nat) (l : CoreSt → List Nat) : s.Fetched (s.modCore c fun k => { k with ibuf := l k }) c := by
  refine ⟨State.ReadOnly.refl s, ?_, fun d hd => State.core_modCore_ne _ _ hd⟩
  rw [State.core_modCore_same]

theorem State.fetched_keepTlb (s : State) (c page : Nat) : s.Fetched (s.keepTlb c page) c := by
  unfold State.keepTlb
  exact s.fetched_tlb c _

/-- The reads of a walk. -/
theorem State.readOnly_readEntries (s : State) (c x unit : Nat) (l : List Nat) : s.ReadOnly (s.readEntries c x unit l).1 := by
  unfold State.readEntries
  have k : ∀ (l : List Nat) (a : State × Bool), s.ReadOnly a.1 → s.ReadOnly (l.foldl (fun (a : State × Bool) d =>
      if a.2 then
        let q := (a.1.countQueue {} [(d, 8, 0)]).readPiece (some x) (some (s.core c).handle) { unit } (d, 8, 0)
        (q.1, !q.2.2)
      else a) a).1 := by
    intro l
    induction l with
    | nil => exact fun a h => h
    | cons p l ih =>
      intro a h
      refine ih _ ?_
      dsimp only
      split
      · exact (h.trans (a.1.readOnly_countQueue {} _ rfl)).trans (State.readOnly_readPiece _ _ _ _ _)
      · exact h
  exact k l (s, true) (.refl s)

/-- The walk of the tables for one page (R250, R254). -/
theorem State.fetched_walkPage (s : State) (c x unit page : Nat) : s.Fetched (s.walkPage c x unit page).1 c := by
  unfold State.walkPage
  split
  · exact .refl s c
  · have kr := State.Fetched.of_readOnly (s.readOnly_readEntries c x unit ((s.ctx x).walkReads (page * Config.page))) c
    generalize s.readEntries c x unit ((s.ctx x).walkReads (page * Config.page)) = r at kr ⊢
    by_cases h : (r.2 && ((s.ctx x).walk (page * Config.page)).isSome) = true
    · simp only [h, if_true]
      exact kr.trans (State.fetched_keepTlb _ _ _)
    · simp only [h]
      exact kr

theorem State.fetched_walkFor (s : State) (c x unit va n : Nat) : s.Fetched (s.walkFor c x unit va n).1 c := by
  unfold State.walkFor
  split
  · exact .refl s c
  · have k : ∀ (l : List Nat) (a : State × Bool), s.Fetched a.1 c → s.Fetched (l.foldl (fun (a : State × Bool) i =>
        if a.2 then a.1.walkPage c x unit (va / Config.page + i) else a) a).1 c := by
      intro l
      induction l with
      | nil => exact fun a h => h
      | cons p l ih =>
        intro a h
        refine ih _ ?_
        dsimp only
        split
        · exact h.trans (a.1.fetched_walkPage c x unit _)
        · exact h
    exact k _ (s, true) (.refl s c)

theorem State.fetched_fillBuffer (s : State) (c x : Nat) (h : Word) (va : Nat) : s.Fetched (s.fillBuffer c x h va).1 c := by
  unfold State.fillBuffer
  have kw := s.fetched_walkFor c x 1 va 8
  generalize s.walkFor c x 1 va 8 = w at kw ⊢
  dsimp only
  split
  · exact kw
  · next d _ =>
    have kr := kw.trans (.of_readOnly
      (w.1.readOnly_readPieces (some x) (some h) { unit := 1, core := some c } [(d.1 / 128 * 128, 128, d.2)] rfl) c)
    generalize w.1.readPieces (some x) (some h) { unit := 1, core := some c } [(d.1 / 128 * 128, 128, d.2)] = r at kr ⊢
    split
    · exact kr
    · exact kr.trans (State.fetched_ibuf _ _ _)

/-- The fetch of an instruction, whether or not it faults (R234, R250). -/
theorem State.fetched_spec (s : State) (c : Nat) : s.Fetched (s.fetched c) c := by
  unfold State.fetched State.fetchStep
  dsimp only
  split
  · exact .refl s c
  · split
    · exact .refl s c
    · split
      · exact .refl s c
      · split
        · exact .refl s c
        · exact s.fetched_fillBuffer _ _ _ _

end Sys2Proof.Machine
end

