-- ==== Sys2Proof/Laws/Control.lean ====
section
/-! SUPPORT. What the issue of a control-core instruction, a result, a branch and a jump do: one lemma for each shared operation. -/

namespace Sys2Proof.Machine

/-- An instruction whose opcode is listed, as every row's is, and whose fetch does not fault. -/
theorem control_ready {op res : Nat} {reads : List Nat} {c : Nat} {w : Word} {s : State} (h1 : s.ready c op w reads = true)
    (h2 : s.start.fetchFault c = none) (hl : listedOp op = true) (body : State → State) : control op res reads body c w s =
      .next ((if clearIn w.toNat res then body (s.atIssue c) else (s.atIssue c).illegal c).settle s) := by
  have hop : opOf w = op := by
    simp only [State.ready, Bool.and_eq_true, beq_iff_eq] at h1
    exact h1.1.2
  simp only [control, hop, hl, if_true, when_pos h1, State.fetchThen, h2, State.atIssue]

/-- An instruction that issues runs its body in the state that its fetch leaves. -/
theorem control_issues {op res : Nat} {reads : List Nat} {c : Nat} {w : Word} {s : State} (h : s.Issues c op res reads w)
    (hl : listedOp op = true) (body : State → State) : control op res reads body c w s = .next ((body (s.atIssue c)).settle s) := by
  obtain ⟨h1, h2, h3⟩ := h
  rw [control_ready h1 h2 hl, if_pos h3]

/-- An instruction whose reserved bits are not zero raises ILLEGAL_INSTR (R205). -/
theorem control_reserved {op res : Nat} {reads : List Nat} {c : Nat} {w : Word} {s : State} (h1 : s.ready c op w reads = true)
    (h2 : s.start.fetchFault c = none) (h3 : clearIn w.toNat res = false) (hl : listedOp op = true) (body : State → State) :
    control op res reads body c w s = .next (((s.atIssue c).illegal c).settle s) := by
  rw [control_ready h1 h2 hl, h3]
  rfl

/-! ## The state at issue -/

theorem State.atIssue_spec (s : State) (c : Nat) : s.start.Fetched (s.atIssue c) c := s.start.fetched_spec c

theorem State.atIssue_core (s : State) (c : Nat) :
    (s.atIssue c).core c = { s.core c with ibuf := ((s.atIssue c).core c).ibuf, tlb := ((s.atIssue c).core c).tlb } := (s.atIssue_spec c).core

@[simp] theorem State.atIssue_reg (s : State) (c n : Nat) : (s.atIssue c).reg c n = s.reg c n := by
  rw [State.reg, s.atIssue_core c]
  rfl

@[simp] theorem State.atIssue_pc (s : State) (c : Nat) : (s.atIssue c).pc c = s.pc c := by
  rw [State.pc, s.atIssue_core c]
  rfl

theorem State.atIssue_other (s : State) {c d : Nat} (h : d ≠ c) : (s.atIssue c).core d = s.core d := (s.atIssue_spec c).others d h

/-- What the fetch keeps, whatever the instruction then does to cores. -/
theorem State.atIssue_keeps (s : State) (c : Nat) (l : Tab CoreSt) : s.ReadKeeps { (s.atIssue c).settle s with cores := l } := by
  have h := (s.atIssue_spec c).read
  exact ⟨fun h0 => (h.bytes h0).2, h.hostMem, rfl, h.gov, h.rings, h.params, h.net, h.units, h.sec, h.board, h.regs, h.ctx⟩

@[simp] theorem CoreSt.reg_zero (k : CoreSt) : k.reg 0 = 0 := rfl

/-- A register after a write: s0 stays zero, the register written holds the value, the others are as they were. -/
theorem CoreSt.reg_setReg (k : CoreSt) (n m : Nat) (v : Word) :
    (k.setReg n v).reg m = if m = n then (if n = 0 then 0 else v) else k.reg m := by
  by_cases hm : m = n
  · subst hm
    by_cases h : m = 0 <;> simp [CoreSt.setReg, CoreSt.reg, h]
  · by_cases h : n = 0
    · simp [CoreSt.setReg, h]
      intro h0
      omega
    · by_cases h0 : m = 0
      · simp [CoreSt.reg, h0]
        intro h1
        omega
      · simp [CoreSt.setReg, CoreSt.reg, h, h0, hm, Tab.look_put_ne _ _ _ hm]

@[simp] theorem CoreSt.setReg_pc (k : CoreSt) (n : Nat) (v : Word) : (k.setReg n v).pc = k.pc := by
  unfold CoreSt.setReg; split <;> rfl

/-- What a register write leaves of a core. -/
theorem CoreSt.setReg_frame (k : CoreSt) (n : Nat) (v : Word) : k.setReg n v =
    { k with regs := (k.setReg n v).regs, loads := (k.setReg n v).loads, sums := (k.setReg n v).sums, vq := (k.setReg n v).vq } := by
  unfold CoreSt.setReg; split <;> rfl

/-- Writing a register and moving the PC: what core c holds then. -/
theorem wroteReg_of (s t : State) (c rd : Nat) (v : Word) (p : Nat) (h : t.core c = { ((s.atIssue c).core c).setReg rd v with pc := p }) :
    s.WroteReg t c rd v p := by
  have e := s.atIssue_core c
  generalize (s.atIssue c).core c = k at h e
  have hk : ∀ n, k.reg n = s.reg c n := fun n => by rw [e]; rfl
  have hr : ∀ n, t.reg c n = if n = rd then (if rd = 0 then 0 else v) else k.reg n := by
    intro n
    rw [State.reg, h, ← CoreSt.reg_setReg]
    rfl
  refine ⟨by rw [hr, if_pos rfl], fun n hn => by rw [hr, if_neg hn, hk], by rw [State.pc, h], ?_⟩
  rw [h]
  have f := k.setReg_frame rd v
  generalize k.setReg rd v = ks at f
  rw [f, e]

/-- A body that changes its core alone. -/
theorem onlyCore_of (s : State) (c : Nat) (f : CoreSt → CoreSt) : s.OnlyCore (((s.atIssue c).modCore c f).settle s) c :=
  ⟨rfl, fun d hd => by simp [State.core_modCore_ne _ _ hd, s.atIssue_other hd], s.atIssue_keeps c _⟩

theorem onlyCore_of2 (s : State) (c : Nat) (f g : CoreSt → CoreSt) :
    s.OnlyCore ((((s.atIssue c).modCore c f).modCore c g).settle s) c :=
  ⟨rfl, fun d hd => by simp [State.core_modCore_ne _ _ hd, s.atIssue_other hd], s.atIssue_keeps c _⟩

/-- An instruction that writes rd and goes on. -/
theorem result_spec (s : State) (c : Nat) (w v : Word) :
    s.WroteReg (((s.atIssue c).result c w v).settle s) c (fRd w) v (s.pc c + 8) ∧
      s.OnlyCore (((s.atIssue c).result c w v).settle s) c := by
  refine ⟨wroteReg_of _ _ _ _ _ _ ?_, onlyCore_of2 _ _ _ _⟩
  have e : ((s.atIssue c).core c).pc = s.pc c := s.atIssue_pc c
  simp [State.result, State.setReg, State.advance, e]

/-- A format R instruction. -/
theorem aluR_spec {op : Nat} {c : Nat} {w : Word} {s : State} (f : Word → Word → Word) (h : s.Issues c op resR [fRa w, fRb w] w)
    (hl : listedOp op = true) : Completes (aluR op f c w s) fun t =>
      s.WroteReg t c (fRd w) (f (s.reg c (fRa w)) (s.reg c (fRb w))) (s.pc c + 8) ∧ s.OnlyCore t c := by
  refine ⟨_, control_issues h hl _, ?_⟩
  simp only [State.atIssue_reg]
  exact result_spec s c w _

/-- A format I instruction. -/
theorem aluI_spec {op res : Nat} {c : Nat} {w : Word} {s : State} (f : Word → Word) (h : s.Issues c op (resI ||| res) [fRa w] w)
    (hl : listedOp op = true) : Completes (aluI op res f c w s) fun t =>
      s.WroteReg t c (fRd w) (f (s.reg c (fRa w))) (s.pc c + 8) ∧ s.OnlyCore t c := by
  refine ⟨_, control_issues h hl _, ?_⟩
  simp only [State.atIssue_reg]
  exact result_spec s c w _

/-! ## Immediates, branches and jumps -/

/-- The zero-extended immediate of format I. -/
theorem fImm_eq (w : Word) : fImm w = BitVec.ofNat 64 (w.toNat % 2 ^ 32) := by
  simp [fImm, field, fieldN]

/-- A signed field of 32 bits is the sign extension of the low half of the word. -/
theorem sfield32_eq (w : Word) : wordOf (sfield w 0 32) = (w.truncate 32).signExtend 64 := by
  rw [BitVec.signExtend, wordOf]
  congr 1
  simp only [sfield, signN, field, fieldN, BitVec.toInt_eq_toNat_cond, BitVec.truncate]
  simp
  split <;> split <;> omega

/-- The sign-extended immediate of format I. -/
theorem fSimm_eq (w : Word) : fSimm w = (w.truncate 32).signExtend 64 := sfield32_eq w

/-- A branch or jump by a signed number of instructions. -/
theorem jumpBy_spec (s : State) (c : Nat) (w : Word) : s.jumpBy c (sfield w 0 32) =
    s.setPc c (BitVec.ofNat 64 (s.pc c) + 8 * (w.truncate 32).signExtend 64) := by
  have h : wordOf (8 * sfield w 0 32) = 8 * wordOf (sfield w 0 32) := by
    simp only [wordOf]
    rw [BitVec.ofInt_mul]
    rfl
  rw [State.jumpBy, h, sfield32_eq]

/-- Setting the PC of the core. -/
theorem movedPc_of (s : State) (c : Nat) (f : CoreSt → Nat) (p : Nat) (hp : f ((s.atIssue c).core c) = p) :
    s.MovedPc (((s.atIssue c).modCore c fun k => { k with pc := f k }).settle s) c p := by
  have e := s.atIssue_core c
  rw [State.MovedPc, State.core_settle, State.core_modCore_same, hp]
  generalize (s.atIssue c).core c = k at e ⊢
  rw [e]

/-- A format B instruction. -/
theorem branch_spec {op : Nat} {c : Nat} {w : Word} {s : State} (f : Word → Word → Bool)
    (h : s.Issues c op resB [fRd w, fRa w] w) (hl : listedOp op = true) :
    Completes (branch op f c w s) fun t =>
      s.MovedPc t c (if f (s.reg c (fRd w)) (s.reg c (fRa w)) then (BitVec.ofNat 64 (s.pc c) + 8 * (w.truncate 32).signExtend 64).toNat
        else s.pc c + 8) ∧ s.OnlyCore t c := by
  refine ⟨_, control_issues h hl _, ?_⟩
  simp only [State.atIssue_reg]
  cases f (s.reg c (fRd w)) (s.reg c (fRa w))
  · exact ⟨movedPc_of s c (fun k => k.pc + 8) _ (congrArg (· + 8) (s.atIssue_pc c)), onlyCore_of _ _ _⟩
  · rw [if_pos rfl, jumpBy_spec, State.atIssue_pc]
    exact ⟨movedPc_of s c (fun _ => (BitVec.ofNat 64 (s.pc c) + 8 * (w.truncate 32).signExtend 64).toNat) _ rfl, onlyCore_of _ _ _⟩

end Sys2Proof.Machine
end

