-- ==== Sys2Proof/Laws/Memory.lean ====
section
/-! SUPPORT. Every operation of the memory system keeps its canonical form, and what a codeword reads as after a write. -/

namespace Sys2Proof.Machine

theorem Mem.wf_iff (m : Mem) : m.wf = true ↔ Tab.wf m.data 0 = true ∧ Tab.wf m.tags {} = true := by
  simp [Mem.wf]

theorem reset_mem_wf : State.reset.mem.wf = true := by decide

theorem Mem.wf_with {m : Mem} {dt : Tab Byte} {tg : Tab TagByte} (h1 : Tab.wf dt 0 = true) (h2 : Tab.wf tg {} = true) :
    Mem.wf { m with data := dt, tags := tg } = true := by
  unfold Mem.wf
  rw [Bool.and_eq_true]
  exact ⟨h1, h2⟩

/-- A write of bytes of a codeword. -/
theorem Mem.wf_writeCw {m : Mem} (h : m.wf = true) (slot dpa : Nat) (d : Bytes) (poison : Bool) :
    (m.writeCw slot dpa d poison).1.wf = true := by
  obtain ⟨h1, h2⟩ := (Mem.wf_iff m).1 h
  unfold Mem.writeCw
  dsimp only
  split
  · exact h
  · split
    · exact Mem.wf_with (Tab.wf_fill h1 _ _) (Tab.wf_put h2 _ _)
    · split
      · exact Mem.wf_with h1 (Tab.wf_put h2 _ _)
      · exact Mem.wf_with (Tab.wf_fill h1 _ _) (Tab.wf_put h2 _ _)

/-- The poisoning of a codeword in place. -/
theorem Mem.wf_poisonCw {m : Mem} (h : m.wf = true) (dpa : Nat) : (m.poisonCw dpa).wf = true := by
  obtain ⟨h1, h2⟩ := (Mem.wf_iff m).1 h
  exact Mem.wf_with (Tab.wf_fill h1 _ _) (Tab.wf_put h2 _ _)

/-- A scrub of whole codewords. -/
theorem Mem.wf_scrub {m : Mem} (h : m.wf = true) (base n : Nat) : (m.scrub base n).wf = true := by
  obtain ⟨h1, h2⟩ := (Mem.wf_iff m).1 h
  unfold Mem.wf
  rw [Bool.and_eq_true]
  exact ⟨Tab.wf_clear h1 _ _, Tab.wf_clear h2 _ _⟩

/-- Clearing all of the data that a test picks, and all of the tags (R258, R553). -/
theorem Mem.wf_filter {m : Mem} (h : m.wf = true) (p : Nat × Byte → Bool) (q : Nat × TagByte → Bool) :
    Mem.wf { m with data := m.data.filter p, tags := m.tags.filter q } = true := by
  obtain ⟨h1, h2⟩ := (Mem.wf_iff m).1 h
  exact Mem.wf_with (Tab.wf_filter h1 _) (Tab.wf_filter h2 _)

/-- A codeword's write for another slot is discarded (R245). -/
theorem Mem.writeCw_discard {m : Mem} {slot dpa : Nat} (h0 : (m.tag dpa).slot ≠ 0) (h1 : (m.tag dpa).slot ≠ slot) (d : Bytes)
    (poison : Bool) : m.writeCw slot dpa d poison = (m, true) := by
  simp [Mem.writeCw, h0, h1]

/-- A write that is not discarded, of bytes that are not poison, to a codeword that is not poisoned or is written whole (R243, R255). -/
theorem Mem.writeCw_stored {m : Mem} {slot dpa : Nat} {d : Bytes} (h : (m.tag dpa).slot = 0 ∨ (m.tag dpa).slot = slot)
    (hp : (m.tag dpa).poison = false ∨ d.length = 128) : m.writeCw slot dpa d false =
      ({ m with data := Tab.fill m.data 0 dpa d, tags := Tab.put m.tags {} (dpa / 128) { poison := false, slot } }, false) := by
  have h2 : ((m.tag dpa).slot != 0 && (m.tag dpa).slot != slot) = false := by
    rcases h with h | h <;> simp [h]
  have h3 : ((m.tag dpa).poison && decide (d.length < 128)) = false := by
    rcases hp with hp | hp <;> simp [hp]
  simp [Mem.writeCw, h2, h3]

end Sys2Proof.Machine
end

