-- ==== Sys2Proof/Tests/Slice0.lean ====
section
/-! SUPPORT. The model's own tests: a term that each check of WellFormed refuses; single commands on small states with results from the spec's tables;
and for every obligation with hypotheses, operands and states that meet all hypotheses of each of its clauses together. -/

namespace Sys2Proof.Tests

set_option Elab.async false
open Sys2Proof Sys2Proof.Machine

/-! ## Ill-formed terms -/

theorem test_wfCore_refuses : (Instr.coreHang 128).wf = false ∧ (Instr.coreHang 127).wf = true := by decide
theorem test_wfArray_refuses : (Instr.passStart 0 8 0 0 0).wf = false ∧ (Instr.passStart 0 7 0 0 0).wf = true := by decide
theorem test_wfQuad_refuses : (Instr.droopDetect 4).wf = false ∧ (Instr.droopDetect 3).wf = true := by decide
theorem test_wfCtx_refuses : (Instr.scrubDone 256).wf = false ∧ (Instr.scrubDone 255).wf = true := by decide
theorem test_wfFunc_refuses : (Instr.flr 64).wf = false ∧ (Instr.flr 63).wf = true := by decide
theorem test_wfPort_refuses : (Instr.lightLost 8).wf = false ∧ (Instr.lightLost 7).wf = true := by decide
theorem test_wfChannel_refuses : (Instr.ready { channels := [384] }).wf = false ∧ (Instr.ready { channels := [383] }).wf = true := by decide
theorem test_wfPackage_refuses : (Instr.refreshRateFall 48).wf = false ∧ (Instr.refreshRateFall 47).wf = true := by decide
theorem test_wfDomain_refuses : (Instr.regFault 46).wf = false ∧ (Instr.regFault 45).wf = true := by decide
theorem test_wfColumn_refuses : (Instr.coldStart true true false [] [(0, 66)] [] false).wf = false := by decide
theorem test_wfLane_refuses : (Instr.coldStart true true false [] [] [(0, 65)] false).wf = false := by decide
theorem test_wfRing_refuses : (Instr.irqTimerExpiry (.ctx 0 16)).wf = false ∧ (Instr.irqTimerExpiry (.ctx 0 15)).wf = true := by decide
theorem test_wfColl_refuses : (Instr.replicaRebuildDone 0).wf = false ∧ (Instr.replicaRebuildDone (2 ^ 32)).wf = false := by decide
theorem test_wfSize_refuses : (Instr.regWrite 0 3 0).wf = false ∧ (Instr.regWrite 0 8 0).wf = true := by decide
theorem test_wfConfig_refuses : (Instr.configRequest 0 2 none).wf = false ∧ (Instr.configRequest 0 0x100E none).wf = false := by decide
theorem test_wfVector_refuses : (Instr.msixUnmask 1 64).wf = false ∧ (Instr.msixUnmask 0 2047).wf = true := by decide
theorem test_wfLine_refuses : (Instr.cxlMemRead 1 64 []).wf = false ∧ (Instr.cxlMemRead 0 64 []).wf = true := by decide
theorem test_wfTest_refuses : (Instr.arraySelfTest (.array 1024) []).wf = false ∧ (Instr.arraySelfTest (.lanes 128) []).wf = false := by decide
theorem test_wfVia_refuses (m : Msg) : (Instr.put (.port 8) m).wf = false ∧ (Instr.put .hub m).wf = true := by
  constructor <;> rfl
theorem test_wfWord_refuses : (Instr.add 0 0x0200000000000000).wf = false ∧ (Instr.add 0 0x0100000000000000).wf = true := by decide

/-! ## Small states -/

/-- Little-endian bytes. -/
def le (n v : Nat) : Bytes := (List.range n).map fun i => BitVec.ofNat 8 (v / 256 ^ i)
/-- An instruction word in the R and I formats. -/
def word (op rd ra rb imm : Nat) : Word := BitVec.ofNat 64 (op * 2 ^ 56 + rd * 2 ^ 51 + ra * 2 ^ 46 + rb * 2 ^ 41 + imm)
/-- Bytes at scratchpad addresses. -/
def bytesAt (l : List (Nat × Bytes)) : List Host.Cell := l.foldl (fun t e => Tab.fill t 0 e.1 e.2) []
/-- The next state of an outcome. -/
def after (o : Host.Outcome State Fault Refusal) : State := match o with
  | .next t => t
  | _ => {}

/-- A core that runs a kernel of context 0. -/
def core0 : CoreSt :=
  { owner := some (0, 0), running := true, codeLen := 0x200, handle := 1, awidth := 60, amask := 255
    regs := [(1, 5), (2, 0xFFFFFFFFFFFFFFFB), (3, 0x8000000000000000), (4, 0x1000), (5, 64), (6, 8), (8, 0x1000), (9, 0x10), (10, 0x1000000), (31, 3)] }
/-- Its logical core. -/
def lcore0 : LCore := { home := some 0, shelves := [0, 1], rows := [(3, 0xFF), (8, 0x80)], slots := [(1, { full := true, c := 2, f := 1, d := 2 }), (2, { full := false, c := 1, f := 3, d := 1 })] }
/-- Context 0, running on core 0, with three pages mapped: read and write, read only, and read and write of a poisoned codeword. -/
def ctx0 : Ctx :=
  { st := .running, lcores := [(0, lcore0)], placed := [0], req := { shelves := 2, qmask := 1 }, width := 60
    ptL0 := [(0, { v := true })], ptL1 := [(0, { v := true })]
    ptL2 := [(0, { v := true, leaf := true, w := true, addr := 0, slot := 1 }), (1, { v := true, leaf := true, addr := 512, slot := 3 }), (2, { v := true, leaf := true, w := true, addr := 1024, slot := 3 })] }
/-- A turn unit in FREE. -/
def turn0 : TurnUnit := { st := .free, params := { source := some .internal }, count := 5, phase := 9, lowest := 4 }
/-- A module in service. -/
def base : State :=
  { board := { stage := .ready, domains := BitVec.allOnes 46 }, turn := turn0, cores := [(0, core0)], ctxs := [(0, ctx0)]
    mem := { avail := 15, data := [(8, 7), (9, 255), (2097160, 1)], tags := [(0, { slot := 1 }), (1, { slot := 1 }), (2, { slot := 1 }), (16384, { slot := 3, poison := true })] } }
/-- Core 0 changed. -/
def withCore (f : CoreSt → CoreSt) : State := { base with cores := [(0, f core0)] }
/-- The scratchpad of core 0 changed. -/
def withPad (f : LCore → LCore) : State := { base with ctxs := [(0, { ctx0 with lcores := [(0, f lcore0)] })] }

/-! ## Single commands, with results from the spec's tables -/

/-- R211: a division by 0 gives all ones; the remainder of −5 by 3 is −2. -/
theorem test_divs_by_zero : (after (execDivs 0 (word 0x07 4 2 0 0) base)).reg 0 4 = BitVec.allOnes 64 := by decide +kernel
theorem test_rems_sign : (after (execRems 0 (word 0x09 4 2 31 0) base)).reg 0 4 = 0xFFFFFFFFFFFFFFFE := by decide +kernel
/-- R210: rd = 0 discards the result, and the PC still moves on. -/
theorem test_add_s0 : (after (execAdd 0 (word 0x01 0 1 1 0) base)).reg 0 0 = 0 ∧ (after (execAdd 0 (word 0x01 0 1 1 0) base)).pc 0 = 8 := by decide +kernel
theorem test_mulhs : (after (execMulhs 0 (word 0x05 4 2 1 0) base)).reg 0 4 = BitVec.allOnes 64 := by decide +kernel
theorem test_addi_sext : (after (execAddi 0 (word 0x21 4 1 0 0xFFFFFFFF) base)).reg 0 4 = 4 := by decide +kernel
theorem test_branch_back : (after (execBeq 0 (word 0x40 1 1 0 0xFFFFFFFF) (withCore fun k => { k with pc := 0x40 }))).pc 0 = 0x38 := by decide +kernel
theorem test_lds_byte : (after (execLds 0 (BitVec.ofNat 64 (0x50 * 2 ^ 56 + 4 * 2 ^ 51 + 2 ^ 43 + 8)) base)).reg 0 4 = 0xFFFFFFFFFFFFFF80 := by decide +kernel
theorem test_sfill_last : ((after (execSfill 0 (word 0x71 0 0 0 2) base)).lcore 0 0).slot 2 = { full := true, c := 1, f := 3, d := 1 } := by decide +kernel

/-! ## The spec's worked examples

Each theorem takes its numbers from the worked example of the chapter that its docstring names. -/

/-- 02_turns: the mark for turn 40 001 arrives at phase 98 060 with a delay of 51 ticks, and places the boundary 1 949 ticks on, at phase 100 009. -/
theorem example_mark_places_boundary :
    let s : State := { base with now := 98060
                                 turn := { st := .locked, params := { source := some .marks, inPorts := 8 }, count := 40000, phase := 98060, followed := some 3 }
                                 fabric := { ports := [(3, { st := .up, authed := true, delay := 51 })] } }
    (after (execMark 3 (Mark.mk 40001 100000 2000 77 0) s)).turn.placed = some (40001, 100009) := by decide +kernel
/-- 03_number_formats_quantisation: five FP32 results quantised to U8 with s = 2^-6, z = 100, with ROUND = 1 and ROUND = 0. -/
theorem example_quantise_sr :
    quantise 1 0x3F74D000 0x3C800000 100 true 0x30 = { bits := 162 } ∧ quantise 1 0xBFCCCCCD 0x3C800000 100 true 0x7A = { bits := 0, clipped := true } ∧
    quantise 1 0x40200000 0x3C800000 100 true 5 = { bits := 255, clipped := true } ∧ quantise 1 0xBFC80000 0x3C800000 100 true 0xE1 = { bits := 0 } ∧
    quantise 1 0x3FBF0000 0x3C800000 100 true 0xC4 = { bits := 195 } := by decide +kernel
theorem example_quantise_rne :
    quantise 1 0x3F74D000 0x3C800000 100 false 0 = { bits := 161 } ∧ quantise 1 0x3FBF0000 0x3C800000 100 false 0 = { bits := 196 } := by decide +kernel
/-- 03_number_formats_quantisation: 41 of 8 192 elements clipped are a share of 0x0148. -/
theorem example_clip_share : clipShare 41 8192 = 0x0148 := by decide
/-- 06_scratchpad: address 0x043A40 lies in slot 67. -/
theorem example_slot_of_address : slotsTouched 0x043A40 1 = [67] := by decide +kernel
/-- 07_vector_engine: the FP32 sum of 16 777 216, 1, 1, 1, 1, −16 777 216 is 3.0, inexact; with one column inactive it is 1.0. -/
theorem example_row_sum :
    let k : CoreSt := { awidth := 60, tiles := [(16384, 0x4B800000), (16385, 0x3F800000), (16386, 0x3F800000), (16387, 0x3F800000), (16388, 0x3F800000), (16389, 0xCB800000)]
                        masks := [(8192, true), (8193, true), (8194, true), (8195, true), (8196, true), (8197, true)] }
    (k.reduceRow 0 4 2 0 true).1 = 0x40400000 ∧ (({ k with masks := Tab.del k.masks 8194 } : CoreSt).reduceRow 0 4 2 0 true).1 = 0x3F800000 := by decide +kernel
/-- 07_vector_engine: a Wide node of 3 at window −9 and 5 at window −1 gives 6 with the byte 2 and 5 with the byte 3, at window −1, with bits lost and the window shifted. -/
theorem example_combine_wide : combineWide 3 (-9) 5 (-1) 2 = (6, -1, true, true, false) ∧ (combineWide 3 (-9) 5 (-1) 3).1 = 5 := by decide +kernel
/-- 05_accumulation: the parts of the reduction combine to 257 exactly. -/
theorem example_combine_exact : combineWide 8589934977 (-9) (wrapN 64 (-8589934720)) (-9) 0 = (257, -9, false, false, false) := by decide +kernel
/-- 08_random_numbers_sampling: the PROD and DRAIN counters of element (5, 37). -/
theorem example_draw_counters :
    drawCtr 0 false 3 0 261 3237 = 0x000000030000000000000001050000CA ∧ drawCtr 2 false 3 4608 261 3237 = 0x200000030000000012000001050000CA := by decide +kernel
/-- 10_memory_system: where DPA 0x0400_1234_5678 lies without and with a global region from 0. -/
theorem example_place : place 0x040012345678 (2 ^ 41) = (2, 69, 24844, 120) ∧ (place 0x040012345678 0).1 = 3 := by decide +kernel
/-- 11_weights_generations: the codes of the table of nine lengths: 0 for symbol 7, 10 for 6, 110 for 8, 1110 for 5, and 1111_1111 for 10. -/
theorem example_canon :
    let t := canon [0, 0, 8, 7, 5, 4, 2, 1, 3, 6, 8, 0, 0, 0, 0, 0]
    (1, 0, 7) ∈ t ∧ (2, 2, 6) ∈ t ∧ (3, 6, 8) ∈ t ∧ (4, 14, 5) ∈ t ∧ (5, 30, 4) ∈ t ∧ (8, 255, 10) ∈ t := by decide +kernel
/-- 12_host_attachment: doorbell offset 0x890 is ring 2 of context 17; host address 0x2_4000_1080 of frame 9 is DPA 0x0400_4000_1080. -/
theorem example_doorbell_offset : doorbellRing 0x890 = .ctx 17 2 := by decide +kernel
theorem example_host_window :
    let s : State := { base with params := { cxlMem := 16 }, host := { link := .full, config := true, frames := [(9, 0x8000000000001001)] } }
    s.windowDpa 0x240001080 = .inr 0x040040001080 := by decide +kernel
/-- 17_power_thermal_energy: with P_FLOOR 452, P_REST 118 and a cap of 300 W a paced turn runs 34 of its 64 parts. -/
theorem example_paced_parts :
    ({ base with factory := { pFloor := 452, pRest := 118 }, gov := { capMNow := 300, capHNow := 1900 } } : State).pacedParts = 34 := by decide +kernel
/-- 17_power_thermal_energy: G1 measures 412 000 µJ; context 17 is charged 367 969 µJ of it, and the group agrees. -/
theorem example_energy_charge : charge 412000 393000 351000 = 367969 ∧ agrees 412000 393000 = true := by decide
/-- 19_security: the raw tag 0 extended under the hash key 2 by two words is 0x34. -/
theorem example_integrity_tag : extendTag 2 0 [0x8000000000000001, 0x0000000000000003] = 0x34 := by decide +kernel
/-- 23_setup_register_map: counter 4 of array 621. -/
theorem example_counter_address : ctrAddr 0 256 621 4 = 0x826D20 := by decide
/-- 09_core_instruction_set: ADDI s5, s0, 0x2_0000 is the word 0x2128_0000_0002_0000. -/
theorem example_addi_word : (after (execAddi 0 0x2128000000020000 base)).reg 0 5 = 0x20000 := by decide +kernel
/-- 09_core_instruction_set: the pass block of the example. -/
theorem example_pass_block :
    let p := passOf (le 8 0xFFFFFF010000 ++ le 8 0x4000200000000040 ++ le 8 0x60000 ++ le 8 0 ++ le 4 0x5FFC0 ++ le 4 0 ++ le 8 0 ++ le 4 0x80 ++ le 4 0x280 ++
      le 8 0x0000404000000400 ++ le 4 0xFFF70010 ++ le 4 0x4000F030 ++ le 4 0 ++ le 4 0 ++ le 4 0x80007060 ++ le 44 0)
    p.window = -9 ∧ p.m = 64 ∧ p.n = 64 ∧ p.k = 1024 ∧ p.srcB = 1 ∧ p.descB = 0x200000000040 ∧ p.drain = 1 ∧ p.trailer = 0x5FFC0 ∧
      p.slA = { mode := 1, count := 16, first := 48 } ∧ p.slDrain = { mode := 2, count := 8, first := 96 } := by decide +kernel
/-- 16_collectives: the ROFF of rank 1's count entry and of its data. -/
theorem example_collective_roff :
    let c : CollRun := { group := 0x0A, cseq := 19, members := [], rank := 1, wbase := 32, depth := 8, op := 4, dtype := 0, redop := 0, root := 0, window := 0, stallTurns := 0, limitTurns := 0, src := {}, dst := {}, work := {}, countsAt := 0, drawKey := 0, orgR := 0, orgC := 0, check := 0 }
    c.win = 35 ∧ c.roff 0 40 = 0x130000000028 ∧ c.roff 1 1000 = 0x1340000003E8 := by decide +kernel

/-! ## Witnesses: the hypotheses of the obligations met

Each theorem below names an obligation and shows, clause by clause, a concrete state and operands for which all hypotheses of the clause hold. -/

/-- An instruction word in the M format. -/
def mword (op rd ra size sx smode slot off : Nat) : Word :=
  BitVec.ofNat 64 (op * 2 ^ 56 + rd * 2 ^ 51 + ra * 2 ^ 46 + size * 2 ^ 44 + sx * 2 ^ 43 + smode * 2 ^ 41 + slot * 2 ^ 29 + off)
/-- An instruction word in the U format. -/
def uword (op ra arr : Nat) : Word := BitVec.ofNat 64 (op * 2 ^ 56 + ra * 2 ^ 48 + arr * 2 ^ 53)

theorem witness_StepRunsFront : ({ base with pending := [.inputRemoved, .hotReset] } : State).pending = .inputRemoved :: [.hotReset] := rfl
theorem witness_EmptyQueueTick :
    base.pending = [] ∧ base.turn.st.counts = true ∧ base.turn.phase ≠ BitVec.allOnes 32 ∧ State.reset.turn.st.counts = false ∧
    ({ base with turn := { turn0 with phase := BitVec.allOnes 32 } } : State).turn.phase = BitVec.allOnes 32 := by decide +kernel
theorem witness_TurnUnitStaysLegal : base.turn.legal = true ∧ Steps base (after (step base)) := ⟨by decide +kernel, rfl⟩
theorem witness_CounterNeverDecreases : Steps { base with pending := [.dieTrip] } (after (step { base with pending := [.dieTrip] })) := rfl
theorem witness_TurnUnitUntouched : turnRow (.add 0 (word 1 4 1 2 0)) = false ∧ exec (.add 0 (word 1 4 1 2 0)) base = .next (after (exec (.add 0 (word 1 4 1 2 0)) base)) :=
  ⟨rfl, rfl⟩
theorem witness_QueueClockFactory :
    Steps { base with pending := [.hotReset, .inputRemoved] } (after (step { base with pending := [.hotReset, .inputRemoved] })) ∧
    ({ base with pending := [.hotReset, .inputRemoved] } : State).pending = .hotReset :: [.inputRemoved] ∧ base.pending = [] := ⟨rfl, rfl, rfl⟩

/-! ### The control core -/

theorem witness_AluRegister : ∀ op ∈ [0x01, 0x02, 0x03, 0x04, 0x05, 0x0A, 0x0B, 0x0C, 0x0D, 0x0E, 0x0F, 0x10, 0x11, 0x12], ∀ rd ∈ [0, 4, 31],
    base.Issues 0 op resR [fRa (word op rd 31 2 0), fRb (word op rd 31 2 0)] (word op rd 31 2 0) := by unfold State.Issues; decide +kernel
theorem witness_Division : ∀ op ∈ [0x06, 0x07, 0x08, 0x09], ∀ rb ∈ [0, 2],
    base.Issues 0 op resR [fRa (word op 4 3 rb 0), fRb (word op 4 3 rb 0)] (word op 4 3 rb 0) := by unfold State.Issues; decide +kernel
theorem witness_AluImmediate : (∀ op ∈ [0x21, 0x2A, 0x2B, 0x2C, 0x31, 0x32, 0x38],
      base.Issues 0 op (resI ||| 0) [fRa (word op 4 2 0 0xFFFFFFFF)] (word op 4 2 0 0xFFFFFFFF)) ∧
    ∀ op ∈ [0x2D, 0x2E, 0x2F], base.Issues 0 op (resI ||| 0xFFFFFFC0) [fRa (word op 4 2 0 63)] (word op 4 2 0 63) := by
  unfold State.Issues; decide +kernel
theorem witness_BranchesAndJumps : (∀ op ∈ [0x40, 0x41, 0x42, 0x43, 0x44, 0x45], ∀ off ∈ [0, 0x7FFFFFFF, 0x80000000],
      base.Issues 0 op resB [fRd (word op 1 2 0 off), fRa (word op 1 2 0 off)] (word op 1 2 0 off)) ∧
    base.Issues 0 0x48 (resI ||| 0x1F * 2 ^ 46) [] (word 0x48 31 0 0 0xFFFFFFFF) ∧
    base.Issues 0 0x49 resI [fRa (word 0x49 0 6 0 8)] (word 0x49 0 6 0 8) := by unfold State.Issues; decide +kernel
theorem witness_ReservedFieldFaults :
    base.ready 0 0x01 (word 0x01 4 1 2 1) [fRa (word 0x01 4 1 2 1), fRb (word 0x01 4 1 2 1)] = true ∧ base.fetchFault 0 = none ∧
    clearIn (word 0x01 4 1 2 1).toNat resR = false ∧ base.canIssue 0 = true ∧ listedOp (opOf (word 0xFF 0 0 0 0)) = false := by
  decide +kernel

/-! ### Scratchpad, memory, unit registers, slots -/

theorem witness_NarrowStoreThenLoad : 508 % 512 + [(1 : Byte), 2, 3, 4].length ≤ 512 ∧ 511 % 512 + [(1 : Byte)].length ≤ 512 := by decide

theorem witness_NarrowAccess :
    let bad := withPad fun l => { l with poison := [0] }
    let far := mword 0x50 4 10 0 0 0 0 0
    let ok := mword 0x50 4 0 3 1 0 0 8
    let st := mword 0x51 2 0 3 0 0 0 504
    (base.Issues 0 0x50 resM [fRa far] far ∧ (base.narrowFault 0 far).isSome = true) ∧
    (base.Issues 0 0x50 resM [fRa ok] ok ∧ base.narrowFault 0 ok = none ∧ base.sluiceCheck 0 (fSluice ok) false = .pass ∧
      (base.start.narrowLoad 0 (base.effAddr 0 ok).toNat (2 ^ (ok.toNat / 2 ^ 44 % 4))).2.isSome = true) ∧
    (bad.Issues 0 0x50 resM [fRa ok] ok ∧ bad.narrowFault 0 ok = none ∧ bad.sluiceCheck 0 (fSluice ok) false = .pass ∧
      (bad.start.narrowLoad 0 (bad.effAddr 0 ok).toNat (2 ^ (ok.toNat / 2 ^ 44 % 4))).2 = none) ∧
    (base.Issues 0 0x51 resM [fRa (mword 0x51 4 0 1 0 0 0 1), fRd (mword 0x51 4 0 1 0 0 0 1)] (mword 0x51 4 0 1 0 0 0 1) ∧
      (base.narrowFault 0 (mword 0x51 4 0 1 0 0 0 1)).isSome = true) ∧
    (base.Issues 0 0x51 resM [fRa st, fRd st] st ∧ base.narrowFault 0 st = none ∧ base.sluiceCheck 0 (fSluice st) true = .pass ∧
      (fSluice st).mode < 2) := by unfold State.Issues; decide +kernel

theorem witness_CodewordWrite :
    let m : Mem := { tags := [(0, { slot := 2 }), (1, { poison := true }), (2, { poison := true, slot := 2 })] }
    let d := List.replicate 128 (3 : Byte)
    (127 % 128 + [(5 : Byte)].length ≤ 128 ∧ (m.tag 127).slot ≠ 0 ∧ (m.tag 127).slot ≠ 1) ∧
    ((m.tag 127).slot = 2 ∧ (m.tag 127).poison = false) ∧ (128 % 128 + d.length ≤ 128 ∧ (m.tag 128).slot = 0 ∧ d.length = 128) ∧
    ((m.tag 256).slot = 2 ∧ (m.tag 256).poison = true ∧ [(5 : Byte)].length < 128) ∧ (126 < 127 ∧ 127 + [(5 : Byte)].length ≤ 128) ∧
    128 / 128 ≠ 127 / 128 := by decide +kernel

/-- A core whose earlier load of two bytes waits for its data. -/
def loading : State := withCore fun k => { k with loads := [{ rd := 4, va := 8, size := 2, sx := true, data := List.replicate 10 1 ++ [0x80] ++ List.replicate 117 0, dpa := 9, poison := false, codeOff := 0 }] }

theorem witness_MemoryAccess :
    let st := mword 0x53 2 0 3 0 0 0 8
    let un := mword 0x53 2 0 3 0 0 0 1
    let big := mword 0x53 2 3 0 0 0 0 0
    let ro := mword 0x53 2 0 0 0 0 0 0x200000
    let ld := mword 0x52 4 0 1 1 0 0 8
    let lx := mword 0x52 4 0 0 0 0 0 0x600000
    let walk := fun (w : Word) => (base.atIssue 0).walkFor 0 0 1 (base.effAddr 0 w).toNat (2 ^ (w.toNat / 2 ^ 44 % 4))
    base.ownerOf 0 = some (0, 0) ∧ base.mem.upsets = [] ∧ base.Issues 0 0x53 resNarrowMem [fRa st, fRd st] st ∧
    (base.Issues 0 0x53 resNarrowMem [fRa un, fRd un] un ∧ (base.effAddr 0 un).toNat % 2 ^ (un.toNat / 2 ^ 44 % 4) ≠ 0) ∧
    (base.Issues 0 0x53 resNarrowMem [fRa big, fRd big] big ∧ 2 ^ 48 ≤ (base.effAddr 0 big).toNat) ∧
    (base.Issues 0 0x53 resNarrowMem [fRa ro, fRd ro] ro ∧ (base.effAddr 0 ro).toNat < 2 ^ 48 ∧
      (walk ro).1.translate 0 .write false (base.effAddr 0 ro).toNat = none) ∧
    ((base.effAddr 0 st).toNat < 2 ^ 48 ∧ (base.effAddr 0 st).toNat % 2 ^ (st.toNat / 2 ^ 44 % 4) = 0 ∧ (walk st).2 = true ∧
      (walk st).1.translate 0 .write false (base.effAddr 0 st).toNat = some (8, 1)) ∧
    (base.Issues 0 0x52 resNarrowMem [fRa lx] lx ∧ (walk lx).1.translate 0 .read false (base.effAddr 0 lx).toNat = none) ∧
    (base.Issues 0 0x52 resNarrowMem [fRa ld] ld ∧ (base.effAddr 0 ld).toNat < 2 ^ 48 ∧
      (base.effAddr 0 ld).toNat % 2 ^ (ld.toNat / 2 ^ 44 % 4) = 0 ∧ (walk ld).2 = true ∧
      (walk ld).1.translate 0 .read false (base.effAddr 0 ld).toNat = some (8, 1) ∧ fRd ld ≠ 0) ∧
    (loading.coreOn 0 = true ∧ (findAt (fun (l : Load) => l.rd == 4) (loading.core 0).loads).any (fun e => e.1 == 0 && !e.2.poison) = true) := by
  unfold State.Issues; decide +kernel

theorem witness_UnitRegisters :
    let rd := word 0x60 4 0 0 0x008
    let rx := word 0x60 4 0 0 0x180
    let wr := word 0x61 0 1 0 0x028
    let wx := word 0x61 0 1 0 0x004
    let tr := word 0x62 4 5 0 0
    let t1 := word 0x62 5 5 0 0
    (base.Issues 0 0x60 (resI ||| 0xFFFFF000 ||| 0x1F * 2 ^ 46) [] rd ∧ rd.toNat % 2 ^ 12 ≠ 0x00A ∧ (base.ureg 0 (rd.toNat % 2 ^ 12)).isSome = true) ∧
    (base.Issues 0 0x60 (resI ||| 0xFFFFF000 ||| 0x1F * 2 ^ 46) [] (word 0x60 4 0 0 0x00A) ∧ (word 0x60 4 0 0 0x00A).toNat % 2 ^ 12 = 0x00A) ∧
    (base.Issues 0 0x60 (resI ||| 0xFFFFF000 ||| 0x1F * 2 ^ 46) [] rx ∧ base.ureg 0 (rx.toNat % 2 ^ 12) = none) ∧
    (base.Issues 0 0x61 (resI ||| 0xFFFFF000 ||| 0x1F * 2 ^ 51) [fRa wr] wr ∧ (base.ureg 0 (wr.toNat % 2 ^ 12)).isSome = true) ∧
    (base.Issues 0 0x61 (resI ||| 0xFFFFF000 ||| 0x1F * 2 ^ 51) [fRa wx] wx ∧ base.ureg 0 (wx.toNat % 2 ^ 12) = none) ∧
    (base.Issues 0 0x62 (resR ||| 0x1F * 2 ^ 41) [] tr ∧ fRd tr ≠ fRa tr) ∧
    (base.Issues 0 0x62 (resR ||| 0x1F * 2 ^ 41) [] t1 ∧ fRd t1 = fRa t1 ∧ fRd t1 ≠ 0) := by unfold State.Issues; decide +kernel

theorem witness_FenceExitTrapret :
    let busy := withCore fun k => { k with leat := [{ kind := 0, block := [], codeOff := 0 }] }
    let waits := withCore fun k => { k with remotes := [{ block := [], codeOff := 0 }] }
    let hand := withCore fun k => { k with inHandler := true, trapPc := 0x40 }
    (∀ n ∈ [0, 7], base.Issues 0 0x63 (resI ||| 0xFFFFFFF8) [] (word 0x63 0 0 0 n) ∧ base.fenced 0 ((word 0x63 0 0 0 n).toNat % 8) = true) ∧
    (waits.Issues 0 0x63 (resI ||| 0xFFFFFFF8) [] (word 0x63 0 0 0 4) ∧ waits.fetchFault 0 = none ∧ waits.fenced 0 ((word 0x63 0 0 0 4).toNat % 8) = false) ∧
    (base.Issues 0 0x64 resI [] (word 0x64 0 0 0 255) ∧ (base.core 0).quiet = true) ∧
    (busy.Issues 0 0x64 resI [] (word 0x64 0 0 0 0) ∧ (busy.core 0).quiet = false) ∧
    (hand.Issues 0 0x65 (resI ||| 0xFFFFFFFE) [] (word 0x65 0 0 0 1) ∧ (hand.core 0).inHandler = true) ∧
    (base.Issues 0 0x65 (resI ||| 0xFFFFFFFE) [] (word 0x65 0 0 0 0) ∧ (base.core 0).inHandler = false) := by unfold State.Issues; decide +kernel

theorem witness_SlotUpdates :
    let e : Slot := { full := false, c := 2, f := 15, d := 1 }
    let g : Slot := { full := true, c := 1, f := 1, d := 15 }
    (e.full = false ∧ 2 ≤ e.c) ∧ (({ e with c := 1 } : Slot).full = false ∧ ({ e with c := 1 } : Slot).c = 1) ∧ g.full = true ∧
    (({ g with c := 2 } : Slot).full = true ∧ 2 ≤ ({ g with c := 2 } : Slot).c) ∧ (g.full = true ∧ g.c = 1) ∧
    (1 ≤ e.c ∧ e.c < 16 ∧ 1 ≤ e.f ∧ e.f < 16 ∧ 1 ≤ e.d ∧ e.d < 16) := by decide

theorem witness_SlotInstructions :
    let full := resS ||| 0x1F * 2 ^ 51
    let arm := word 0x70 0 0 0 (3 * 2 ^ 40 + 15 * 2 ^ 36 + 31)
    let arm0 := word 0x70 0 0 0 (3 * 2 ^ 40 + 1)
    let armX := word 0x70 0 5 0 (3 * 2 ^ 40 + 15 * 2 ^ 36)
    let l := base.lcore 0 0
    base.ownerOf 0 = some (0, 0) ∧
    (base.Issues 0 0x70 (full ||| 3 * 2 ^ 44) [fRa arm] arm ∧ field arm 40 4 ≠ 0 ∧ field arm 36 4 ≠ 0 ∧ base.slotNo 0 arm < 16 * base.shelvesOf 0) ∧
    (base.Issues 0 0x70 (full ||| 3 * 2 ^ 44) [fRa arm0] arm0 ∧ field arm0 36 4 = 0) ∧
    (base.Issues 0 0x70 (full ||| 3 * 2 ^ 44) [fRa armX] armX ∧ field armX 40 4 ≠ 0 ∧ field armX 36 4 ≠ 0 ∧ 16 * base.shelvesOf 0 ≤ base.slotNo 0 armX) ∧
    (∀ p ∈ [(0x71, 0, false), (0x71, 1, true), (0x71, 2 ^ 45 + 1, true), (0x72, 1, true), (0x72, 31, false), (0x72, 2 ^ 45 + 31, false)],
      let w := word p.1 0 0 0 p.2.1
      base.Issues 0 p.1 (full ||| 0x1FF * 2 ^ 36) [fRa w] w ∧ base.slotNo 0 w < 16 * base.shelvesOf 0 ∧ (l.slot (base.slotNo 0 w)).full = p.2.2) ∧
    (∀ p ∈ [(2 ^ 44 + 1, true), (0, false)], let w := word 0x73 0 0 0 p.1
      base.Issues 0 0x73 (full ||| 0xFF * 2 ^ 36) [fRa w] w ∧ base.slotNo 0 w < 16 * base.shelvesOf 0 ∧
        (l.slot (base.slotNo 0 w)).full = bitAt w 44 ∧ bitAt w 44 = p.2) ∧
    (∀ i ∈ [1, 2 ^ 44, 2 ^ 45 + 1], let w := word 0x73 0 0 0 i
      base.Issues 0 0x73 (full ||| 0xFF * 2 ^ 36) [fRa w] w ∧ base.slotNo 0 w < 16 * base.shelvesOf 0 ∧ (l.slot (base.slotNo 0 w)).full ≠ bitAt w 44) ∧
    (base.Issues 0 0x74 (resS ||| 0x3FF * 2 ^ 36) [fRa (word 0x74 4 0 0 31)] (word 0x74 4 0 0 31) ∧ base.slotNo 0 (word 0x74 4 0 0 31) < 16 * base.shelvesOf 0) ∧
    (∀ p ∈ [(0x71, 0x1FF * 2 ^ 36), (0x72, 0x1FF * 2 ^ 36), (0x73, 0xFF * 2 ^ 36)], let w := word p.1 0 0 0 32
      base.Issues 0 p.1 (full ||| p.2) [fRa w] w ∧ 16 * base.shelvesOf 0 ≤ base.slotNo 0 w) ∧
    (base.Issues 0 0x74 (resS ||| 0x3FF * 2 ^ 36) [fRa (word 0x74 4 5 0 0)] (word 0x74 4 5 0 0) ∧ 16 * base.shelvesOf 0 ≤ base.slotNo 0 (word 0x74 4 5 0 0)) := by
  unfold State.Issues; decide +kernel

/-! ### The vector engine -/

/-- A V3 word. -/
def v3word (op td mk pol k1 r1 k2 r2 k3 low : Nat) : Word :=
  BitVec.ofNat 64 (op * 2 ^ 56 + td * 2 ^ 52 + mk * 2 ^ 49 + pol * 2 ^ 48 + k1 * 2 ^ 45 + r1 * 2 ^ 40 + k2 * 2 ^ 31 + r2 * 2 ^ 26 + k3 * 2 ^ 17 + low)
/-- A core with values in its tiles and masks, and two rows in range from row 1. -/
def vcore : CoreSt :=
  { core0 with vrange := 0x201, regs := core0.regs ++ [(11, 512)]
               tiles := [(0, 0x3F800000), (64, 0x40000000), (65, 0x7F800000), (66, 0x7FC00000), (8192 + 64, 0xC0400000), (8192 + 65, 0x3FF00000)]
               masks := [(4096 + 64, true), (4096 + 66, true)] }
/-- The module with that core, and with its core's queue of vector instructions full. -/
def vec : State := { base with cores := [(0, vcore)] }
/-- A vector instruction that waits. -/
def vwait : VecOp := { opc := 0xA0, word := 0, vrange := 0x201, vorg := 0, key := 0, stream := 0, codeOff := 0 }
/-- See `vec`. -/
def vecFull : State := { base with cores := [(0, { vcore with vq := List.replicate 16 vwait })] }

theorem witness_VectorCompute :
    (∀ e ∈ [(0xA0, 0, 0, 2, 7), (0xA5, 0, 7, 0, 7), (0xAA, 1, 7, 0, 7), (0xB0, 0, 0, 2, 7), (0xBA, 0, 0, 2, 7), (0xC0, 0, 0, 2, 7), (0xC4, 0, 7, 0, 6)], ∀ td ∈ [0, 15],
      let op := e.1
      let w := v3word op td 1 1 e.2.1 0 e.2.2.1 e.2.2.2.1 e.2.2.2.2 0
      (v3Instr op 0 w).isSome = true ∧ vec.Issues 0 op 0 (v3Regs w) w ∧ vLayout w = true ∧
        vec.vecIssueFault 0 (vec.capture 0 op w (v3Regs w) []) = none ∧ (vec.core 0).vq = [] ∧ (vec.core 0).vbad = [] ∧ (vec.core 0).vsoft = []) ∧
    (let w := v3word 0xA0 2 1 0 7 1 0 0 7 0
     vec.Issues 0 0xA0 0 (v3Regs w) w ∧ vLayout w = false) ∧
    (let w := v3word 0xC8 1 1 0 0 0 0 2 0 0
     vec.Issues 0 0xC8 0 (v3Regs w) w ∧ vLayout w = true ∧ (vec.vecIssueFault 0 (vec.capture 0 0xC8 w (v3Regs w) [])).isSome = true) ∧
    (let w := v3word 0xA0 2 1 0 0 0 0 2 7 0
     vecFull.Issues 0 0xA0 0 (v3Regs w) w ∧ vLayout w = true ∧ vecFull.vecIssueFault 0 (vecFull.capture 0 0xA0 w (v3Regs w) []) = none ∧
      16 ≤ (vecFull.core 0).vq.length) := by unfold State.Issues; decide +kernel

theorem witness_ElementwiseResult :
    let v : VecOp := { vwait with opc := 0xC4, word := v3word 0xC4 15 1 0 0 0 0 2 0 0 }
    (0xC0 ≤ v.opc ∧ v.opc ≤ 0xC4) ∧ vFirst v.vrange + vCount v.vrange ≤ 64 ∧ vcore.awidth ≤ 64 ∧ 15 < 16 ∧
    (15 = vTd v.word ∧ (vFirst v.vrange ≤ 1 ∧ 1 < vFirst v.vrange + vCount v.vrange) ∧ vcore.maskBit (vMk v.word) 1 0 = true) ∧
    (59 < vcore.awidth ∧ vcore.maskBit (vMk v.word) 1 59 = false) ∧ (0 ≠ vTd v.word) ∧
    ¬ (vFirst v.vrange ≤ 63 ∧ 63 < vFirst v.vrange + vCount v.vrange) := by decide +kernel
theorem witness_IntegerElements : 0 < 2 ^ 32 ∧ 0xFFFFFFFF < 2 ^ 32 := by decide

/-- A word of VLD, VST or QUANT: a tensor of FP32 rows of 64 elements from the address in sA. -/
def vmWord (op form fmt : Nat) : Word := BitVec.ofNat 64 (op * 2 ^ 56 + 2 * 2 ^ 52 + 1 * 2 ^ 49 + form * 2 ^ 45 + fmt * 2 ^ 41 + 11 * 2 ^ 32)
/-- The vector core with a combine block of level 1 at scratchpad address 0x1000. -/
def vecBlk : State := { vec with ctxs := [(0, { ctx0 with lcores := [(0, { lcore0 with rows := bytesAt [(0x1000, le 32 0 ++ le 4 0x100 ++ le 28 0)] })] })] }

theorem witness_VectorMemory_vst :
    let w := vmWord 0xE5 0 7
    let v := vec.capture 0 0xE5 w (vmRegs w) []
    vec.Issues 0 0xE5 1 (vmRegs w) w ∧ vec.vecIssueFault 0 v = none ∧ (vec.core 0).vq = [] ∧
      ((((vec.atIssue 0).modCore 0 fun k => { k with vq := k.vq ++ [v] }).advance 0).vecCheck 0 v = .pass) := by unfold State.Issues; decide +kernel
theorem witness_VectorMemory_vld :
    let w := vmWord 0xE4 0 7
    let v := vec.capture 0 0xE4 w (vmRegs w) []
    vec.Issues 0 0xE4 1 (vmRegs w) w ∧ vec.vecIssueFault 0 v = none ∧ (vec.core 0).vq = [] ∧
      ((((vec.atIssue 0).modCore 0 fun k => { k with vq := k.vq ++ [v] }).advance 0).vecCheck 0 v = .pass) := by unfold State.Issues; decide +kernel
theorem witness_VectorMemory_quant :
    let w := BitVec.ofNat 64 (0xE6 * 2 ^ 56 + 2 * 2 ^ 52 + 5 * 2 ^ 32)
    let v := vec.capture 0 0xE6 w (vmRegs w) []
    vec.Issues 0 0xE6 1 (vmRegs w) w ∧ vec.vecIssueFault 0 v = none ∧ (vec.core 0).vq = [] ∧
      ((((vec.atIssue 0).modCore 0 fun k => { k with vq := k.vq ++ [v] }).advance 0).vecCheck 0 v = .pass) := by unfold State.Issues; decide +kernel
theorem witness_VectorMemory_loaded :
    let w := vmWord 0xE4 0 7
    let v := vec.capture 0 0xE4 w (vmRegs w) []
    (vec.core 0).gather = [] ∧ (vec.lcoreOf 0).bad = [] ∧ (vec.lcoreOf 0).soft = [] ∧ (vec.lcoreOf 0).poison = [] ∧ (vec.core 0).vbad = [] ∧
      (vec.core 0).vsoft = [] ∧ mForm w ≠ 1 ∧ (vec.core 0).awidth ≤ 64 ∧
      ((vec.core 0).touched v).all (fun r => vec.inShelves 0 (512 * r) 512) = true ∧ (vec.core 0).maskBit (vMk w) 1 0 = true := by decide +kernel
theorem witness_VectorMemory_combine :
    ∀ op ∈ [0xE8, 0xE9],
      let w := uword op 8 0
      let r := (vecBlk.atIssue 0).readBlock 0 (vecBlk.reg 0 (fUra w)).toNat 64
      let v := r.1.capture 0 op w [] r.2.1
      vecBlk.Issues 0 op (resU ||| 7 * 2 ^ 53) [fUra w] w ∧ vecBlk.blockFault 0 (vecBlk.reg 0 (fUra w)) 64 = none ∧ r.2.2 = false ∧
        r.1.vecIssueFault 0 v = none ∧ (vecBlk.core 0).vq = [] ∧
        (((r.1.modCore 0 fun k => { k with vq := k.vq ++ [v] }).advance 0).vecCheck 0 v = .pass) := by unfold State.Issues; decide +kernel
theorem witness_VectorMemory_block :
    ∀ op ∈ [0xE8, 0xE9], vecBlk.Issues 0 op (resU ||| 7 * 2 ^ 53) [fUra (uword op 10 0)] (uword op 10 0) ∧
      (vecBlk.blockFault 0 (vecBlk.reg 0 (fUra (uword op 10 0))) 64).isSome = true := by unfold State.Issues; decide +kernel

theorem witness_VectorMemory_poison :
    let bad : State := { vec with ctxs := [(0, { ctx0 with lcores := [(0, { lcore0 with rows := bytesAt [(0x1000, le 32 0 ++ le 4 0x100 ++ le 28 0)], poison := [8] })] })] }
    ∀ op ∈ [0xE8, 0xE9], let w := uword op 8 0
      bad.Issues 0 op (resU ||| 7 * 2 ^ 53) [fUra w] w ∧ bad.blockFault 0 (bad.reg 0 (fUra w)) 64 = none ∧
        ((bad.atIssue 0).readBlock 0 (bad.reg 0 (fUra w)).toNat 64).2.2 = true := by unfold State.Issues; decide +kernel

/-- A SUMM word: COUNT of mask 1. -/
def summWordCount (rd : Nat) : Word := BitVec.ofNat 64 (0xE0 * 2 ^ 56 + rd * 2 ^ 51 + 1 * 2 ^ 43 + 2 * 2 ^ 28)

theorem witness_Summaries :
    (∀ rd ∈ [0, 31], let w := summWordCount rd
      vec.Issues 0 0xE0 (2 ^ 26 - 1) [] w ∧ w.toNat / 2 ^ 28 % 16 ≤ 11 ∧ vec.vecIssueFault 0 (vec.capture 0 0xE0 w [] []) = none ∧ (vec.core 0).vq = [] ∧
        (vec.core 0).vbad = [] ∧ (vec.core 0).vsoft = []) ∧
    (let w : Word := BitVec.ofNat 64 (0xE0 * 2 ^ 56 + 12 * 2 ^ 28)
     vec.Issues 0 0xE0 (2 ^ 26 - 1) [] w ∧ 11 < w.toNat / 2 ^ 28 % 16) ∧
    (let s : State := { base with cores := [(0, { vcore with sums := [(4, 7), (0, 4)] })] }
     s.coreOn 0 = true ∧ (s.core 0).sums = (4, 7) :: [(0, 4)]) := by unfold State.Issues; decide +kernel

/-! ### Unit instructions, arrays, the leat -/

/-- The aperture address of a scratchpad address. -/
def ap (a : Nat) : Nat := 0xFFFFFF000000 + a
/-- A tensor descriptor of 16 rows of 16 elements, 512 bytes apart, of scale 1. -/
def desc (at_ fmt : Nat) : Bytes := le 8 (ap at_) ++ le 4 16 ++ le 4 16 ++ le 4 512 ++ le 4 0x3F800000 ++ le 4 fmt ++ le 4 0
/-- A pass block: M = N = 2, K = 2, U8 operands of the scratchpad, ZERO preload, a final drain or a Wide one. -/
def passBlk (drain : Nat) : Bytes :=
  le 8 (ap 0x80) ++ le 8 (ap 0xA0) ++ le 8 (if drain = 0 then ap 0xC0 else 0x800) ++ le 8 0 ++ le 4 (if drain = 0 then 0 else 0xA00) ++ le 4 0 ++ le 8 0 ++
    le 4 0 ++ le 4 0 ++ le 8 (2 * 2 ^ 40 + 2 * 2 ^ 32 + 2) ++ le 4 (drain * 16) ++ le 60 0
/-- A remote block: a PUT of 64 bytes from scratchpad address 0x400 into window 1 of context 0 of node 2. -/
def remoteBlk : Bytes := le 4 0 ++ [1, 0, 2, 0] ++ le 8 0 ++ le 8 (ap 0x400) ++ le 4 64 ++ le 4 0 ++ le 8 0 ++ le 4 0xB00 ++ le 20 0
/-- A leat block: an LMOVE from the tensor at 0x80 to the one at 0xA0; an LSTREAM needs its own. -/
def moveBlk : Bytes := le 8 (ap 0x80) ++ le 8 (ap 0xA0) ++ le 48 0
/-- A scratchpad with a pass block at 0, descriptors of U8 and FP32 tensors and their first bytes, and a block at 0x1000. -/
def unitRows (drain : Nat) (b : Bytes) : List Host.Cell :=
  bytesAt [(0, passBlk drain), (0x80, desc 0x400 1), (0xA0, desc 0x600 1), (0xC0, desc 0xC00 7), (0x400, le 24 0x0102030405060708090A), (0x600, le 24 0xFF0201), (0x1000, b)]
/-- The module with that scratchpad and array 0 active. -/
def unit (drain : Nat) (b : Bytes) : State :=
  { base with ctxs := [(0, { ctx0 with lcores := [(0, { lcore0 with rows := unitRows drain b })] })]
              units := { activity := [(0, { level := 8 }), (1, { level := 1, gap := 300 })] } }
/-- The word of PASS on array 0 with its block at 0. -/
def passWord : Word := uword 0x80 0 0

theorem witness_UnitInstructions :
    let s := unit 1 moveBlk
    let r := unit 1 remoteBlk
    let full := s.modArray 0 0 fun y => { y with queue := List.replicate 4 ({ block := [], key := 0, stream := 0, codeOff := 0 } : PassQ) }
    let lfull := s.modCore 0 fun k => { k with leat := List.replicate 8 ({ kind := 0, block := [], codeOff := 0 } : LeatOp) }
    let rfull := r.modCore 0 fun k => { k with remotes := List.replicate 16 ({ block := [], codeOff := 0 } : RemoteOp) }
    let wait := s.modCore 0 fun k => { k with stall := some { opc := 0x80, word := passWord } }
    (s.Issues 0 0x80 resU [fUra (uword 0x80 10 0)] (uword 0x80 10 0) ∧ (s.blockFault 0 (s.reg 0 10) 128).isSome = true) ∧
    (s.Issues 0 0x80 resU [fUra passWord] passWord ∧ s.blockFault 0 (s.reg 0 (fUra passWord)) 128 = none ∧ ((s.atIssue 0).readBlock 0 0 128).2.2 = false ∧
      ((s.atIssue 0).readBlock 0 0 128).1.passIssueFault 0 0 ((s.atIssue 0).readBlock 0 0 128).2.1 = none ∧ (s.array 0 0).queue.length < 4) ∧
    (full.Issues 0 0x80 resU [fUra passWord] passWord ∧ full.blockFault 0 (full.reg 0 (fUra passWord)) 128 = none ∧
      ((full.atIssue 0).readBlock 0 0 128).2.2 = false ∧ ((full.atIssue 0).readBlock 0 0 128).1.passIssueFault 0 0 ((full.atIssue 0).readBlock 0 0 128).2.1 = none ∧
      4 ≤ (full.array 0 0).queue.length) ∧
    (s.Issues 0 0x90 (resU ||| 7 * 2 ^ 53) [fUra (uword 0x90 8 0)] (uword 0x90 8 0) ∧ s.blockFault 0 (s.reg 0 8) 64 = none ∧
      ((s.atIssue 0).readBlock 0 0x1000 64).2.2 = false ∧ ((s.atIssue 0).readBlock 0 0x1000 64).1.leatIssueFault 0 0 ((s.atIssue 0).readBlock 0 0x1000 64).2.1 = none ∧
      (s.core 0).leat.length < 8) ∧
    (lfull.Issues 0 0x90 (resU ||| 7 * 2 ^ 53) [fUra (uword 0x90 8 0)] (uword 0x90 8 0) ∧ lfull.blockFault 0 (lfull.reg 0 8) 64 = none ∧
      ((lfull.atIssue 0).readBlock 0 0x1000 64).2.2 = false ∧
      ((lfull.atIssue 0).readBlock 0 0x1000 64).1.leatIssueFault 0 0 ((lfull.atIssue 0).readBlock 0 0x1000 64).2.1 = none ∧ 8 ≤ (lfull.core 0).leat.length) ∧
    (r.Issues 0 0xF0 (resU ||| 7 * 2 ^ 53) [fUra (uword 0xF0 8 0)] (uword 0xF0 8 0) ∧ r.blockFault 0 (r.reg 0 8) 64 = none ∧
      ((r.atIssue 0).readBlock 0 0x1000 64).2.2 = false ∧ ((r.atIssue 0).readBlock 0 0x1000 64).1.remoteIssueFault 0 ((r.atIssue 0).readBlock 0 0x1000 64).2.1 = none ∧
      (r.core 0).remotes.length < 16) ∧
    (s.blockFault 0 (s.reg 0 10) 64 ≠ none ∧ s.Issues 0 0x90 (resU ||| 7 * 2 ^ 53) [fUra (uword 0x90 10 0)] (uword 0x90 10 0) ∧
      s.Issues 0 0xF0 (resU ||| 7 * 2 ^ 53) [fUra (uword 0xF0 10 0)] (uword 0xF0 10 0)) ∧
    (rfull.Issues 0 0xF0 (resU ||| 7 * 2 ^ 53) [fUra (uword 0xF0 8 0)] (uword 0xF0 8 0) ∧ rfull.blockFault 0 (rfull.reg 0 8) 64 = none ∧ ((rfull.atIssue 0).readBlock 0 0x1000 64).2.2 = false ∧
      ((rfull.atIssue 0).readBlock 0 0x1000 64).1.remoteIssueFault 0 ((rfull.atIssue 0).readBlock 0 0x1000 64).2.1 = none ∧ 16 ≤ (rfull.core 0).remotes.length) ∧
    (wait.coreOn 0 = true ∧ (wait.core 0).stall = some { opc := 0x80, word := passWord } ∧ wait.controlSlot 0 { opc := 0x80, word := passWord } = none ∧
      wait.queueRoom 0 (unitOf 0x80 passWord) = true ∧ (wait.core 0).gather = [] ∧ (wait.lcoreOf 0).bad = [] ∧ (wait.lcoreOf 0).soft = [] ∧
      (wait.lcoreOf 0).poison = [] ∧ wait.blockFault 0 (wait.reg 0 (fUra passWord)) 128 = none ∧
      (wait.start.readBlock 0 0 128).1.passIssueFault 0 0 (wait.start.readBlock 0 0 128).2.1 = none) := by
  unfold State.Issues; decide +kernel


theorem witness_AccumulatorTerm :
    let r : Adding := { acc := [(1, accNaR), (2, 5)], sats := [3] }
    Tab.look r.acc 0 1 = accNaR ∧ 3 ∈ r.sats ∧
    (Tab.look r.acc 0 2 ≠ accNaR ∧ 2 ∉ r.sats ∧ inLim ((Tab.look r.acc 0 2).toInt + (srUnits (exDy 1 0) 0 0).1) = true) ∧
    (Tab.look r.acc 0 2 ≠ accNaR ∧ 2 ∉ r.sats ∧ inLim ((Tab.look r.acc 0 2).toInt + (srUnits (exDy 1 100) 0 0).1) = false) ∧
    (0 < (exDy 3 (-1)).d ∧ (exDy 3 (-1)).n * 2 ^ 16 = 98304 * ((2 : Int)) ∧ 0 < (exDy 1 0).d ∧ (0 : Int) * (1 * 2 ^ 4) < 1 ∧ (1 : Int) < (0 + 1) * (1 * 2 ^ 4)) := by decide +kernel

/-! ### Steps of an array -/

/-- An array with a pass in its queue, then running it, its last operands pulled, draining. -/
def arrQueued (drain : Nat) : State := after (execPass 0 passWord (unit drain moveBlk))
def arrRunning (drain : Nat) : State := after (execPassStart 0 0 1 1 1 (arrQueued drain))
def arrLanded (drain : Nat) : State := after (execOperandStep 0 0 {} (after (execOperandStep 0 0 {} (arrRunning drain))))
def arrDraining (drain : Nat) : State := after (execDrainBegin 0 0 none (arrLanded drain))
/-- The same pass with a TILE preload from scratchpad address 0x800. -/
def arrPreload : State :=
  let b := passBlk 1
  let blk : Bytes := b.take 24 ++ le 8 0x800 ++ (b.drop 32).take 4 ++ le 4 0xA00 ++ (b.drop 40).take 24 ++ le 4 0x110 ++ b.drop 68
  after (execPass 0 passWord ((unit 1 moveBlk).modLcoreOf 0 fun l => { l with rows := Tab.fill l.rows 0 0 blk }))
/-- A pass whose operands did not come in time. -/
def arrAbandoned : State := (arrRunning 1).modArray 0 0 fun y => { y with slot0 := { y.slot0 with use := .abandoned } }
/-- A landed pass whose destination is armed with slot 1, which holds another release. -/
def arrArmed : State :=
  ((arrLanded 1).modArray 0 0 fun y => { y with queue := y.queue.map fun (q : PassQ) => { q with block := q.block.take 0x50 ++ le 4 0xC0000001 ++ q.block.drop 0x54 } }).modLcoreOf 0
    fun l => { l with slots := [(1, { full := true })] }

theorem witness_ArraySteps_start :
    let s := arrQueued 1
    s.coreOn 0 = true ∧ ((s.array 0 0).queue[(s.array 0 0).started]?).any (fun q =>
      (s.array 0 0).startReady (passOf q.block) && s.fillCheck 0 (passOf q.block) == .pass) = true := by decide +kernel
theorem witness_ArraySteps_preload :
    let s := arrPreload
    let y := s.array 0 0
    s.coreOn 0 = true ∧ (y.queue[y.started]?).any (fun q =>
      (passOf q.block).needsShift && (y.slot y.next).use == .empty && s.preCheck 0 (passOf q.block) == .pass) = true := by decide +kernel
theorem witness_ArraySteps_operands :
    let s := arrRunning 1
    let y := s.array 0 0
    let z := y.slot !y.next
    s.coreOn 0 = true ∧ z.use = .pass ∧ z.replay = false ∧ (Tab.look s.units.activity {} (s.physArray 0 0)).level ≠ 0 ∧
      z.pass.any (fun q => (pullBlocks (passOf q.block).srcA z.fmtA ((z.cycleSteps (passOf q.block)).getLast?.getD z.nextK) z.hopA y.streamA).isSome &&
        (pullBlocks (passOf q.block).srcB z.fmtB ((z.cycleSteps (passOf q.block)).getLast?.getD z.nextK) z.hopB y.streamB).isSome) = true := by decide +kernel
/-- Does an abandoned pass start again: 0 both operands and the preload are read, 1 the first operand's descriptor faults, 2 something else. -/
def restartCase (s : State) : Nat :=
  let y := s.array 0 0
  let z := y.slot !y.next
  match z.pass with
  | none => 2
  | some q =>
    let p := passOf q.block
    match ((s.start.bumpA 0 0 8 1).bumpA 0 0 9 4).readSide 0 p.srcA p.descA with
    | (_, .inl _) => 1
    | (sa, .inr da) => match sa.readSide 0 p.srcB p.descB with
      | (_, .inl _) => 2
      | (sb, .inr db) => match sb.readDest 0 p with
        | (_, .inl _) => 2
        | (sd, .inr _) => match (sd.readPreload 0 p q z da.scale db.scale (z.window + 8) true).2 with
          | .inr _ => 0
          | .inl _ => 2
theorem witness_ArraySteps_restart :
    let s := arrAbandoned
    let y := s.array 0 0
    let bad := s.modLcoreOf 0 fun l => { l with rows := Tab.fill l.rows 0 0x80 (le 32 0xFF) }
    s.coreOn 0 = true ∧ (y.slot !y.next).use = .abandoned ∧ restartCase s = 0 ∧ bad.coreOn 0 = true ∧ restartCase bad = 1 := by decide +kernel
theorem witness_ArraySteps_drain :
    (let s := arrLanded 1
     let y := s.array 0 0
     y.queue.length = 1 ∧ (y.slot (y.slotOfEntry 0)).use = .landed ∧
      y.queue.all (fun q => s.sluiceCheck 0 (passOf q.block).slDrain true == .pass) = true) ∧
    (let s := arrArmed
     let y := s.array 0 0
     y.queue.length = 1 ∧ (y.slot (y.slotOfEntry 0)).use = .landed ∧
      y.queue.all (fun q => s.sluiceCheck 0 (passOf q.block).slDrain true == .notReady 1) = true) := by decide +kernel
theorem witness_ArraySteps_done :
    (let s := arrDraining 1
     let y := s.array 0 0
     let z := if (y.slot y.next).use = .draining then y.next else !y.next
     s.coreOn 0 = true ∧ (y.slot z).outPass.isSome = true ∧ (y.slot z).use = .draining ∧ (y.slot z).outTrailer.isSome = true) ∧
    (let s := arrDraining 0
     let y := s.array 0 0
     let z := if (y.slot y.next).use = .draining then y.next else !y.next
     (y.slot z).use = .draining ∧ (y.slot z).outTrailer = none ∧ (y.slot z).outPass.any (fun q =>
      s.start.rowsFault (s.start.agent 0 6) ((y.slot z).outDest.getD (descOf [])) (List.range (min (passOf q.block).m ((y.slot z).outDest.getD (descOf [])).rows)) == none) = true) ∧
    (let s := (arrDraining 0).modArray 0 0 fun y => { y with slot0 := { y.slot0 with outDest := y.slot0.outDest.map fun d => { d with base := 0x600000 } } }
     let y := s.array 0 0
     let z := if (y.slot y.next).use = .draining then y.next else !y.next
     s.coreOn 0 = true ∧ (y.slot z).use = .draining ∧ (y.slot z).outTrailer = none ∧ (y.slot z).outPass.any (fun q =>
      (s.start.rowsFault (s.start.agent 0 6) ((y.slot z).outDest.getD (descOf [])) (List.range (min (passOf q.block).m ((y.slot z).outDest.getD (descOf [])).rows))).isSome) = true) := by
  decide +kernel

/-- A core whose arrays and lanes stand still, with tests due and one failing core withdrawn. -/
def unitsIdle : State :=
  { withCore (fun k => { k with running := false }) with fw := { retests := [.core 0, .array 9] }, units := { activity := [(0, { level := 3, gap := 300 })], testDue := [9, 3], withdrawn := [0] } }

theorem witness_ArrayActivityAndTests :
    let r := { arrRunning 1 with units := { activity := [(0, { level := 3 })] } }
    (r.serving = true ∧ (r.activity 0 0).level < 8 ∧ r.operandsWait 0 0 = true) ∧
    ((unit 1 moveBlk).serving = true ∧ ((unit 1 moveBlk).activity 0 0).level ≠ 0 ∧ (unit 1 moveBlk).operandsWait 0 0 = false) ∧
    (unitsIdle.serving = true ∧ Tab.look unitsIdle.units.interval 0 3 ≤ 0 ∧ unitsIdle.start.mayAsk (0, false) = true ∧ unitsIdle.start.mayAsk (1, false) = false) ∧
    (∀ x ∈ [3, 1023], unitsIdle.arrayInUse x = false ∧ .array x ∉ unitsIdle.fw.retests) ∧ 3 ∈ unitsIdle.units.testDue ∧
    (unitsIdle.arrayInUse 9 = false ∧ .array 9 ∈ unitsIdle.fw.retests) ∧
    (let s : State := { unitsIdle with now := 24 * ticksHour }
     s.serving = true ∧ s.testDueNow 1023 = true ∧ (s.core 127).owner = none ∧ TestUnit.lanes 127 ∉ s.fw.retests ∧ s.testDueNow (1024 + 127) = true ∧
       5 ∉ s.badLanes 127 ∧ 5 ∉ Tab.look s.units.pendLanes [] 127) ∧
    ((unitsIdle.core 0).running = false ∧ TestUnit.core 0 ∈ unitsIdle.fw.retests) := by decide +kernel

/-! ### Stalls, the leat -/

/-- A queued command of context 0 on ring 0, released. -/
def cmd0 : Cmd :=
  { handle := 1, ring := .ctx 0 0, target := 0, op := 0x31, flags := 0, turn := 0, deadline := none, deps := [], body := [], order := 0, st := .released }
/-- A ring of sixteen entries. -/
def ring0 : Ring := { func := 0, sqBase := 0, cqBase := 0, dbAddr := 0, sqLog := 4, cqLog := 4, mmio := true, irqCount := 1, vector := 0, irqTimer := 0, vqp := 0 }
/-- A core that has waited on slot 1 for longer than its deadline, and with every unit still for longer than the interval. -/
def stalled (full : Bool) : State :=
  { base with cmds := [cmd0], rings := [(0, ring0)]
              cores := [(0, { core0 with stall := some { opc := 0x72, word := word 0x72 0 0 0 1 }, stallTicks := [(0, 300000000)], deadTicks := 20000 })]
              ctxs := [(0, { ctx0 with lcores := [(0, { lcore0 with slots := [(1, { full := full })] })] })] }
/-- Waiting work of each engine, its slots ready. -/
def queued : State :=
  { vec with cores := [(0, { vcore with vq := [vwait], remotes := [{ block := remoteBlk, codeOff := 0 }] })], cmds := [cmd0], rings := [(0, ring0)] }

theorem witness_StallsEnd :
    ((stalled true).coreOn 0 = true ∧ (stalled true).ownerOf 0 = some (0, 0) ∧ ((stalled true).core 0).stall.isSome = true ∧
      (stalled true).headReady 0 .control = true) ∧
    (queued.coreOn 0 = true ∧ queued.ownerOf 0 = some (0, 0) ∧ queued.headReady 0 .vector = true ∧ queued.headReady 0 .window = true ∧
      (arrQueued 1).headReady 0 (.array 0) = true) ∧
    ((stalled false).overdue 0 .control = some (1, 0) ∧ (stalled false).coreOn 0 = true ∧ (stalled false).ownerOf 0 = some (0, 0)) ∧
    ((stalled false).deadlocked 0 = true ∧ (stalled false).params.deadlock < ((stalled false).core 0).deadTicks ∧
      ((stalled false).cmd ((stalled false).core 0).handle).any (fun m => m.whole == none) = true) := by decide +kernel

/-- A core with an LMOVE in its leat. -/
def leatCore : State := (unit 1 moveBlk).modCore 0 fun k => { k with leat := [{ kind := 0, block := moveBlk, codeOff := 0 }] }
/-- A pass that waits for a stream to be delivered again, and one whose stream cannot be read again. -/
def arrReplay : State := (arrRunning 1).modArray 0 0 fun y => { y with slot0 := { y.slot0 with replay := true } }
def arrLost : State := arrReplay.modArray 0 0 fun y => { y with slot0 := { y.slot0 with
  pass := y.slot0.pass.map fun q => { q with block := q.block.take 7 ++ le 1 0x40 ++ q.block.drop 8 }
  srcsA := [{ op := { kind := 0, block := moveBlk, codeOff := 0, descs := [descOf (desc 0x400 1), descOf (desc 0x600 1)] }, unit := 99, chunk := 0 }] } }
/-- Are the blocks of the waiting pass read again? -/
def replayed (s : State) : Option Bool :=
  let y := s.array 0 0
  let z := y.slot !y.next
  z.pass.bind fun q =>
    let p := passOf q.block
    match (s.start.rereadSide 0 0 (if p.srcA = 1 then z.srcsA else [])).2 with
    | .blocks _ => some true
    | .bad _ _ => some false
    | _ => none
/-- A generation whose layers 1 and 2 are on their way to the prefetch buffer. -/
def prefetching : State := { base with ctxs := [(0, { ctx0 with gens := [(0, { body := { prefetch := [(1, false), (2, false)], st := .ready } })] })] }

theorem witness_LeatProgress :
    (leatCore.ownerOf 0 = some (0, 0) ∧ leatCore.coreOn 0 = true ∧ (List.range 8).find? (fun i => leatCore.leatMoves 0 i) = some 0 ∧
      ((leatCore.core 0).leat[0]?).isSome = true) ∧
    (arrReplay.coreOn 0 = true ∧ arrReplay.ownerOf 0 = some (0, 0) ∧
      let b := !(arrReplay.array 0 0).next
      ((arrReplay.array 0 0).slot b).use = .pass ∧ ((arrReplay.array 0 0).slot b).replay = true ∧ replayed arrReplay = some true ∧
      arrLost.coreOn 0 = true ∧ arrLost.ownerOf 0 = some (0, 0) ∧ ((arrLost.array 0 0).slot b).use = .pass ∧
      ((arrLost.array 0 0).slot b).replay = true ∧ replayed arrLost = some false) ∧
    (prefetching.ownerOf 0 = some (0, 0) ∧ prefetching.serving = true ∧ (prefetching.genBody 0 0).any (fun g => (2, false) ∈ g.prefetch) = true) := by
  decide +kernel

/-! ### Weights, collections, the patrol -/

/-- A manifest of three shards of four bytes; the first two hold 1 2 3 4, and the third a digest that nothing has. -/
def shardList (a b : Digest) : Manifest :=
  { encrypted := false, shardLog2 := 2, layers := 1, imageBytes := 12, kvHeads := 1, headWidth := 64, kvFmt := 1, kvZp := 0, kvScale := 0x3F800000, tables := [], tensors := [], shards := [(a, [], []), (a, [], []), (b, [], [])] }
/-- A body with that manifest in page 5. -/
def genBody (st : GenState) (shards : Tab Nat) (a b : Digest) : GenBody :=
  { manifest := some (shardList a b), st := st, shards := shards, atUse := true, pages := [(0, 5)], spans := [(0, 0, 4), (1, 4, 4), (2, 8, 4)], slot := 0 }
/-- A load of generation 0 of context 0. -/
def loadRun0 (done : Bool) : LoadRun :=
  { gen := 0, digest := 5, status := 0, sources := [(0, 0), (0, 0), (0, 1)], budget := 0, tier := [], atUse := true, resume := false, manifestDone := done, manifestBytes := 4 }
/-- Page 5 with the bytes 1 2 3 4. -/
def weightMem : Mem := { avail := 15, data := Tab.fill [] 0 (5 * 2097152) [1, 2, 3, 4], pages := [(5, .gen 0 0)] }
/-- The load under way. -/
def loadingGen (done : Bool) : State :=
  { base with mem := weightMem, cmds := [{ cmd0 with op := 0x10, work := .load (loadRun0 done), nparts := 3 }], rings := [(0, ring0)]
              ctxs := [(0, { ctx0 with gens := [(0, { body := genBody .loading [] 0 0 })] })] }
/-- The generation READY: shard digests that are wrong, or of no page. -/
def readyGen (b : GenBody) : State := { base with mem := weightMem, ctxs := [(0, { ctx0 with gens := [(0, { body := b })] })] }
/-- A collection with that body. -/
def coll0 (b : GenBody) : Coll := { part := 0, atUse := true, width := 64, body := b, wantReplica := true }
/-- The module with collection 3. -/
def withColl (k : Coll) : State := { base with mem := weightMem, colls := [(3, k)] }

/-- A load whose manifest lies in the CXL.mem window, in a frame that is not mapped. -/
def windowLoad : State :=
  { loadingGen false with cmds := [{ cmd0 with op := 0x10, work := .load { loadRun0 false with manifestSrc := (0x40000000, 1) }, nparts := 3 }] }
theorem witness_ShardsArrive :
    (loadingGen false).serving = true ∧
    ((loadingGen false).loadRun 1).any (fun l =>
      ((loadingGen false).start.readSource ((loadingGen false).start.loadAt 1 l) l.manifestSrc l.manifestBytes (some [0])).2.isSome) = true ∧
    ((windowLoad).loadRun 1).any (fun l => l.manifestDone == false && l.manifestSrc.2 == 1 &&
      (windowLoad.start.readSource (windowLoad.start.loadAt 1 l) l.manifestSrc l.manifestBytes (some [0])).2 == none) = true ∧ ((loadingGen false).loadRun 1).any (fun l => l.manifestDone == false) = true ∧
    ((loadingGen true).loadRun 1).any (fun l => (loadingGen true).shardDue 1 0 && ((loadingGen true).bodyAt ((loadingGen true).loadAt 1 l)).any fun b =>
      b.manifest.isSome && b.count == 3 && Tab.look b.shards 0 2 == 0) = true := by decide +kernel
/-- The digest of the manifest's four zeros is not 5. -/
theorem witness_ShardsArrive_digest : sha512 (fitTo 4 [0]) ≠ 5 := by decide +kernel
/-- No shard lies outside the pages; the shard of zeros does not have the digest 0. -/
theorem witness_DigestScrub :
    let b := genBody .ready [(0, 1), (1, 1), (2, 1)] 0 0
    (readyGen b).serving = true ∧ (readyGen b).bodyAt (scrubAt 0 0) = some b ∧ 2 < b.count ∧ b.nextCheck = some 0 ∧ b.checkable 0 = true ∧ (readyGen b).start.shardWrong b 0 = some 1 ∧
    Tab.look b.shards 0 0 ≠ 0 ∧ ({ b with scrubNext := 2 } : GenBody).nextCheck = some 2 ∧
    (let v := genBody .verifying [(0, 1), (1, 0), (2, 1)] 0 0
     v.nextCheck = some 1 ∧ Tab.look v.shards 0 1 = 0) ∧ (genBody .ready [(0, 4), (1, 1), (2, 1)] 0 0).checkable 0 = false := by
  decide +kernel
theorem witness_DigestScrub_right :
    let b := genBody .ready [(0, 1), (1, 1), (2, 1)] (sha512 [1, 2, 3, 4]) 0
    (readyGen b).bodyAt (scrubAt 0 0) = some b ∧ b.nextCheck = some 0 ∧ (readyGen b).start.shardWrong b 0 = none := by decide +kernel
theorem witness_CollectionRepair :
    (let k := coll0 (genBody .held [(0, 1), (1, 1), (2, 1)] 0 0)
     Tab.opt (withColl k).colls 3 = some k ∧ (withColl k).serving = true ∧ k.body.st = .held ∧ k.wantReplica = true ∧ k.replica = false ∧ k.readyNext = false ∧
      k.load = none ∧ (k.body.lacking.all fun i => ((withColl k).start.shardWrong k.body i).isNone) = true ∧ k.backing = []) ∧
    (let k := { coll0 (genBody .held [(0, 1), (1, 1), (2, 4)] 0 0) with backing := [(0, 2097152)] }
     Tab.opt (withColl k).colls 3 = some k ∧ k.wantReplica = true ∧ k.replica = false ∧ k.readyNext = false ∧ k.load = none ∧ k.backing ≠ [] ∧
      (k.body.lacking.all fun i => ((withColl k).start.shardWrong k.body i).isNone) = false) ∧
    (let k := { coll0 (genBody .held [(0, 1), (1, 1), (2, 4)] 0 (sha512 [9, 9, 9, 9])) with backing := [(0, 2097152)] }
     k.backing ≠ [] ∧ 2 ∈ k.body.lacking ∧ ((withColl k).start.shardWritten k.body 2 [9, 9, 9, 9]).shardWrong k.body 2 = none ∧
      ((withColl k).start.shardWritten k.body 2 [9, 9, 9, 8]).shardWrong k.body 2 ≠ none) ∧
    (let k := { coll0 (genBody .held [(0, 1), (1, 1), (2, 4)] 0 0) with backing := [(0, 2097152)] }
     Tab.opt (withColl k).colls 3 = some k ∧ k.body.st = .held ∧ k.backing ≠ [] ∧ 2 ∈ k.body.lacking) ∧
    (let k := coll0 { genBody .ready [] 0 0 with pages := [] }
     Tab.opt (withColl k).colls 3 = some k ∧ k.wantReplica = true ∧ k.replica = false ∧ k.body.st = .ready ∧
      (withColl k).freeOf ((((withColl k).partQuads k.part).filter fun q => q ∉ ((k.body.pages.map fun e => dpaQuad (e.2 * Config.page)).eraseDups)).map
        (withColl k).localRange) k.body.pages.length = some []) := by decide +kernel

/-- Channels whose scrubbers stand at their first codeword, at a later one, and past their last one. -/
def patrolling : State := { base with mem := { weightMem with patrol := [(1, 5), (2, 100000000000)] } }
/-- See `witness_PatrolScrub`. -/
def patrolA (ch : Nat) : Nat := (patrolling.dpaAt ch (Tab.look patrolling.mem.patrol 0 ch)).getD 0
theorem witness_PatrolScrub :
    (∀ ch ∈ [0, 1, 383], patrolling.dpaAt ch (Tab.look patrolling.mem.patrol 0 ch) = some (patrolA ch) ∧ patrolling.memUp (ch / 96) = true ∧ Tab.opt patrolling.mem.upsets (patrolA ch / 128) = none ∧
      patrolling.mem.selfRefresh.getLsbD (ch / 96) = false ∧ (patrolling.mem.tag (patrolA ch)).poison = false) ∧
    patrolling.dpaAt 2 (Tab.look patrolling.mem.patrol 0 2) = none ∧ patrolling.board.stage ≠ .off := by decide +kernel
theorem witness_PatrolScrub_uncorrectable : rsDecode (joinErrors [] ([(3, 1), (77, 9)].filter fun e => e.1 < 132)) = .uncorrectable := by decide +kernel

/-! ### Rings, doorbells, the host link -/

/-- A ring with two descriptors waiting at the host. -/
def ring1 : Ring := { ring0 with sqBase := 0x1000, cqBase := 0x2000, dbAddr := 0x3000, vector := 3, prod := 2 }
/-- The same with two completion records, not yet announced. -/
def ring3 : Ring := { ring1 with ready := [{ handle := 1, status := 0 }, { handle := 2, status := 0 }], unannounced := 2, cqHead := 16, written := 31 }
/-- A coherent doorbell with 63 snoops of late; its ring stopped. -/
def ring4 : Ring := { ring1 with mmio := false, lineHeld := true, snoops := List.replicate 63 500000, stopped := true }
/-- A host link at full service. -/
def hosted : State :=
  { base with now := 500000, host := { link := .full, config := true, vfs := 2, ats := [0, 1], atc := [(0, 5), (1, 6), (0, 7)], unmasked := [3], pendingMsix := [3], msixOn := [0], memOn := true, bars := [(0, 2 ^ 24), (2, 2 ^ 20), (4, 2 ^ 16)], session := true, snoop := [4, 5] } }
/-- It with a ring, and with a viral indication. -/
def withRing (q : Ring) : State := { hosted with rings := [(0, q)] }
def viral (q : Ring) : State := { withRing q with host := { hosted.host with viral := true } }
/-- Nothing connected. -/
def unlinked : State := { base with host := {} }

theorem witness_RingRows :
    let id := RingId.ctx 0 0
    ((withRing ring1).ring id = some ring1 ∧ (withRing ring1).canFetch id = true ∧ ring1.retrying = false) ∧
    (let q := { ring1 with retrying := true }
     (withRing q).ring id = some q ∧ (withRing q).ringService = true ∧ q.enabled = true ∧ q.stopped = false ∧ q.retrying = true) ∧
    ((withRing ring3).ring id = some ring3 ∧ (withRing ring3).serving = true ∧ (withRing ring3).hostWrites = true ∧ ring3.stopped = false ∧ ring3.room = true ∧
      ring3.ready = { handle := 1, status := 0 } :: [{ handle := 2, status := 0 }] ∧ ring3.enabled = true) ∧
    (ring3.unannounced ≠ 0 ∧ (withRing ring3).vectorOpen ring3.func ring3.vector = true ∧
      (withRing { ring3 with vector := 4 }).vectorOpen ring3.func 4 = false) := by decide +kernel
theorem witness_DoorbellWords :
    let id := RingId.ctx 0 0
    let fits := fun (q : Ring) (v : Nat) => v / 2 ^ 48 % 2 ^ 15 = 0 ∧ ahead32 (v % 2 ^ 32) q.cons.toNat ≤ 2 ^ q.sqLog
    (fits ring1 16 ∧ fits ring1 0 ∧ ¬ fits ring1 17 ∧ ¬ fits ring1 0x0001000000000000 ∧ fits ring1 0x800000010000000F) ∧
    ((withRing ring1).ring id = some ring1 ∧ ring1.enabled = true ∧ (withRing ring1).ioOpen = true ∧ (withRing ring1).functionOn 0 = true ∧ id = doorbellRing 0 ∧
      (withRing ring1).barAt (2 ^ 20) = some (.area 0, 0) ∧ ring1.mmio = true ∧ ((withRing ring1).ctx 0).st ≠ .closed ∧ ((withRing ring1).ctx 0).req.func = 0 ∧
      (withRing ring1).barAt 0 = none ∧
      (withRing ring1).doorbellTaken 0 0 8 = true ∧ (withRing ring1).doorbellTaken 0 0 4 = false) ∧
    ((withRing ring4).ring id = some ring4 ∧ (withRing ring4).ringService = true ∧ ring4.stopped = true ∧ ring4.mmio = false ∧ ring4.lineHeld = true ∧
      (withRing ring4).cacheMemOpen = true ∧ (withRing ring4).host.viral = false ∧ (ring4.noteSnoop (withRing ring4).now 0).length = 64) ∧
    ((viral ring4).cacheMemOpen = true ∧ (viral ring4).host.viral = true) ∧
    ((withRing { ring1 with mmio := false, degraded := true }).cacheMemOpen = true) := by decide +kernel
theorem witness_HostLinkService :
    (unlinked.mgmtUp = true ∧ unlinked.board.stage ≠ .tripped ∧ unlinked.board.resetAsserted = false ∧ unlinked.linkUp = false ∧
      unlinked.board.linkDownCount = false ∧ 1 ∉ unlinked.board.faulted ∧ ¬ (4 ≤ 2 ∧ 32 ≤ 32)) ∧
    (hosted.linkUp = true ∧ hosted.host.config = true ∧ hosted.functionOn 3 = false ∧ hosted.functionOn 2 = true ∧ bitAt 0 0 = false) ∧
    (hosted.cacheMemOpen = true ∧ (hosted.rings.any fun e => !e.2.mmio && e.2.lineHeld && e.2.func == 0 && e.2.dbAddr / 64 == 0) = false) ∧
    (hosted.ioOpen = true ∧ hosted.host.ats.contains 1 = true) := by decide +kernel

/-- A window of two frames from address 0, the second read-only, over codewords that are free, encrypted or poisoned. -/
def windowed : State :=
  { hosted with params := { base.params with cxlMem := 2 }
                host := { hosted.host with frames := [(0, 0x8000000000000000), (1, 0xC000000000000001)], memEnable := true, hdmOn := true }
                mem := { avail := 15, data := [(3, 7), (64, 9), (200, 3)], tags := [(1, { slot := 3 }), (2, { poison := true })] } }
theorem witness_HostWindow :
    windowed.cacheMemOpen = true ∧ inLine 0 64 = true ∧ inLine 64 64 = true ∧ inLine 128 1 = true ∧
    (windowed.windowAt 64 = (0, .inr 64) ∧ Tab.opt windowed.mem.upsets (64 / 128) = none ∧ (windowed.mem.tag 64).slot = 0 ∧ (windowed.mem.tag 64).poison = false ∧
      windowed.host.viral = false ∧ windowed.frameReadOnly 0 = false ∧ windowed.mem.wf = true) ∧
    (windowed.windowAt 128 = (0, .inr 128) ∧ (windowed.mem.tag 128).slot ≠ 0) ∧
    ((match (windowed.windowAt (2 ^ 31)).2 with | .inl _ => true | .inr _ => false) = true) ∧
    ((match windowed.windowAt (2 ^ 30) with | (f, .inr a) => f == 1 && a == 2 ^ 30 | (_, .inl _) => false) = true ∧ windowed.frameReadOnly 1 = true) := by
  decide +kernel
theorem witness_HostFailures :
    let id := RingId.ctx 0 0
    ((withRing ring1).serving = true ∧ (withRing ring1).linkUp = true ∧ (withRing ring1).cacheMemOpen = true ∧ (withRing ring1).ring id = some ring1 ∧
      (withRing ring1).canFetch id = true ∧ ring1.retrying = false) ∧
    ((withRing ring3).cacheMemOpen = true ∧ (withRing ring3).ring id = some ring3 ∧ ring3.ready ≠ [] ∧
      ring3.stopped = false ∧ ring3.room = true) ∧
    (let s : State := { hosted with host := { hosted.host with ide := .secure } }
     s.linkUp = true ∧ s.host.ide = .secure) ∧
    (hosted.linkUp = true ∧ hosted.host.session = true ∧ hosted.board.linkDownCount = false ∧ Tab.opt hosted.sec.ideKeys 1 = none) ∧
    (let s : State := { hosted with sec := { hosted.sec with ideKeys := [(1, [7])] } }
     s.linkUp = true ∧ s.host.session = true ∧ (Tab.opt s.sec.ideKeys (1 - 0)).isSome = true) ∧
    (let go := fun (v : Nat) => hosted.host.pendingMsix.contains (2048 * 0 + v) && hosted.host.msixOn.contains 0 && !hosted.host.msixMask.contains 0
     hosted.ioOpen = true ∧ hosted.functionOn 0 = true ∧ 3 < vectors 0 ∧ go 3 = true ∧ go 5 = false) := by
  decide +kernel

/-! ### Commands -/

/-- A command of context 0 with a body. -/
def cm (op : Nat) (body : Bytes) (flags : Nat) (deps : List Word) : Cmd :=
  { cmd0 with op := op, flags := flags, turn := 3, deadline := some 5, deps := deps, body := body ++ le 56 0, st := .waiting }
/-- The command released. -/
def rel (m : Cmd) : Cmd := { m with st := .released }
/-- A generation that is READY. -/
def gen0 : GenBody := { genBody .ready [] 0 0 with width := 60 }
/-- Context 0 with two generations and a sequence. -/
def ctx1 : Ctx :=
  { ctx0 with seqs := [(1, { gen := 0, key := 5, cat := [] })], current := some 0, gens := [(0, { body := gen0, loaded := true }), (1, { body := gen0 })], nextSid := 2 }
/-- The module with one command and that context. Its ring has completed command 0 with status 3. -/
def withCmd (m : Cmd) (x : Ctx) : State :=
  { base with cmds := [m], cmdNo := 1, rings := [(0, { ring0 with fetched := 2, doneLog := [(0, 3)] })], ctxs := [(0, x)], mem := { base.mem with pages := [(0, .pool 0)] } }
/-- A kernel whose cores have ended. -/
def krun0 (entries : List StepEntry) (spills : List Nat) : KRun :=
  { handle := 1, isStep := true, image := 0, karg := 0, drawKey := 0, codeOff := 0, codeLen := 64, entry := 0, rodataOff := 0, rodataLen := 0, rodataDst := 0, args := [], entries := entries, started := true, ended := [(0, 7)], spills := spills }
/-- Context 0 with that kernel in a STEP that uses sequence 1. -/
def ctxBusy : Ctx := { ctx1 with kernels := [krun0 [{ sid := 1, append := 0 }] []] }

theorem witness_ReleaseRows :
    let m := cm 0x20 (le 16 0) 0 []
    let d := cm 0x60 [] 0 [0]
    let w := cm 0x60 [] 0 [5]
    ((withCmd m ctx1).Waits m ∧ (withCmd m ctx1).Releases m ∧ releaseInstr m.op m.handle [] = some (.openSeq 1) ∧ ownStep m.op = false) ∧
    ((withCmd d ctx1).Waits d ∧ (withCmd d ctx1).depsFailed d = true ∧ d.op ≠ 0x02 ∧ d.work = .none ∧ ((withCmd d ctx1).ctx d.target).kernel d.handle = none) ∧
    ((withCmd w ctx1).Waits w ∧ (withCmd w ctx1).depsFailed w = false ∧ (withCmd w ctx1).condsMet w = false) := by
  unfold State.Releases State.Waits; decide +kernel
theorem witness_SequenceCommands_open :
    let m := cm 0x20 (le 16 0) 0 []
    (withCmd m ctx1).cmd m.handle = some m ∧ (withCmd m ctx1).Releases m ∧ ((withCmd m ctx1).ctx 0).current = some 0 ∧
     (withCmd m { ctx1 with current := none }).Releases m ∧ ((withCmd m { ctx1 with current := none }).ctx 0).current = none := by
  unfold State.Releases State.Waits; decide +kernel
theorem witness_SequenceCommands_close :
    let m := cm 0x21 [1] 0 []
    (withCmd m ctx1).Releases m ∧ (Tab.opt ((withCmd m ctx1).ctx 0).seqs (leAt m.body 0 4)).isSome = true ∧ (withCmd m ctx1).seqBusy 0 1 = false ∧
     (withCmd m ctxBusy).Releases m ∧ (withCmd m ctxBusy).seqBusy 0 1 = true ∧ leAt m.body 0 4 = 1 := by
  unfold State.Releases State.Waits; decide +kernel
theorem witness_SequenceCommands_closeLater :
    let m := rel (cm 0x21 [1] 0 [])
    (withCmd m ctx1).serving = true ∧ m.st = .released ∧ m.whole = none ∧ m.failed = [] ∧ (withCmd m ctx1).seqBusy 0 1 = false := by decide +kernel
theorem witness_SequenceCommands_migrate :
    let m := cm 0x22 [1, 0, 0, 0, 1, 0, 1] 0 []
    (withCmd m ctx1).genReady 0 (leAt m.body 4 2) = true ∧ leAt m.body 6 1 = 1 ∧ (withCmd m ctx1).Releases m ∧ (withCmd m ctx1).seqBusy 0 1 = false ∧
     (withCmd m ctxBusy).genReady 0 1 = true ∧ (withCmd m ctxBusy).Releases m ∧ (withCmd m ctxBusy).seqBusy 0 1 = true ∧
     (withCmd (rel m) ctx1).genReady 0 1 = true ∧ (withCmd (rel m) ctx1).seqBusy 0 1 = false := by
  unfold State.Releases State.Waits; decide +kernel
/-- Window 1 of context 0, and the body of an OPEN_WINDOW of window 2 with one writer. -/
def win1 : Window := { kind := 0, ops := 1, core := 0, base := 0, bytes := 512, writers := [] }
def openBody : Bytes := [2, 0, 1, 0] ++ le 4 0 ++ le 8 512 ++ le 8 1024 ++ le 8 0x100 ++ le 2 1
/-- A header of a message, and an operation from the hub that works on window 1. -/
def hdr0 : MsgHdr :=
  { mtype := 0, z := false, poison := false, rmode := 0, hops := 0, status := 0, dstNode := 0, srcNode := 0, dstCtx := 0, srcCtx := 0, window := 0, op := 0, len := 0, roff := 0, tag := 0, part := 0, npart := 0, zmap := 0 }
def inOp0 : InOp := { srcNode := 0, srcCtx := 0, tag := 0, ctx := 0, window := 1, via := .hub, hdr := hdr0, got := 0 }
theorem witness_WindowScrubClose_fence :
    let m := cm 0x60 [] 0 []
    (withCmd m ctx1).cmd m.handle = some m ∧ (withCmd m ctx1).Releases m := by
  unfold State.Releases State.Waits; decide +kernel
theorem witness_WindowScrubClose_open :
    let m := cm 0x50 openBody 0 []
    let s := withCmd m ctx1
    s.Releases m ∧ Tab.opt (s.ctx 0).windows 2 = none ∧ s.collAt 0 2 = none ∧ leAt m.body 0 1 = 2 ∧
     windowRangeOk (s.ctx 0).req.cores (s.ctx 0).req.shelves m.body = true ∧
     ((s.start.modCmd m.handle fun _ => s.released m).vread 0 (some m.handle) {} (leAt m.body 0x18 8) (4 * leAt m.body 0x20 2)).any (fun r =>
       !r.2.2 && !((List.range (leAt m.body 0x20 2)).any fun i => leAt r.2.1 (4 * i) 1 != 0)) = true := by
  unfold State.Releases State.Waits; decide +kernel
theorem witness_WindowScrubClose_close :
    let m := cm 0x51 [1] 0 []
    let s := withCmd m { ctx1 with windows := [(1, win1)] }
    Tab.opt (s.ctx 0).windows (leAt m.body 0 1) = some win1 ∧ s.Releases m ∧ win1.closing = none ∧ s.windowBusy 0 1 = false ∧
     (let b : State := { s with fabric := { inOps := [inOp0] } }
      b.Releases m ∧ b.windowBusy 0 1 = true ∧ Tab.opt (b.ctx 0).windows 1 = some win1) ∧
     (let r := withCmd (rel m) { ctx1 with windows := [(1, { win1 with closing := some 1 })] }
      r.serving = true ∧ (rel m).st = .released ∧ m.whole = none ∧ m.failed = [] ∧ r.windowBusy 0 1 = false) := by
  unfold State.Releases State.Waits; decide +kernel
theorem witness_WindowScrubClose_scrub :
    let m := cm 0x72 (le 8 0 ++ le 8 0 ++ le 8 2097152) 0 []
    let s := withCmd m ctx1
    s.Releases m ∧ leAt m.body 0x10 8 / Config.page = 1 ∧ (s.translate 0 .write false (leAt m.body 8 8 + 0 * Config.page)).isSome = true := by
  unfold State.Releases State.Waits; decide +kernel
theorem witness_WindowScrubClose_context :
    let m := { cm 0x02 [] 0 [] with ring := .admin }
    let s := withCmd m { ctx1 with closeCmd := some 1 }
    s.Releases m ∧ m.target < 256 ∧ (s.ctx 0).closeCmd = some m.handle ∧ leAt m.body 0 1 % 2 = 0 ∧ s.cmdsOf 0 = [] ∧ (s.ctx 0).st ≠ .scrubbing := by
  unfold State.Releases State.Waits; decide +kernel
theorem witness_CommandWorkEnds :
    (let m := rel (cm 0x31 [] 0 [])
     let s := withCmd m ctxBusy
     s.cmd m.handle = some m ∧ s.serving = true ∧ (s.ctx 0).kernels = krun0 [{ sid := 1, append := 0 }] [] :: [] ∧
      s.kernelOver 0 (krun0 [{ sid := 1, append := 0 }] []) = true) ∧
    (let m := { rel (cm 0x13 [] 0 []) with work := .table 2 { fmt := 1, tgen := 1, lens := [] } }
     let s := withCmd m ctx1
     s.cmd m.handle = some m ∧ m.st = .released ∧ s.slotQueued 0 2 = false ∧ m.whole = none ∧ m.failed = []) ∧
    (let m := rel (cm 0x11 [1] 0 [])
     let s := withCmd m ctx1
     s.cmd m.handle = some m ∧ m.whole = none ∧ m.failed = [] ∧ s.streamBusy 0 (leAt m.body 0 2) = false) ∧
    (let m := cm 0x20 [] 0 []
     let s := withCmd m ctx1
     s.Waits m ∧ m.work = .none ∧ (s.ctx 0).kernel m.handle = none ∧ m.due = false ∧ s.deadlinePassed m = true) := by
  unfold State.Waits; decide +kernel

/-- A context that waits for a core, with every core free. -/
def waitingCtx : State :=
  { withCmd cmd0 { ctx0 with st := .waiting, lcores := [], placed := [], width := 0 } with cores := [], cmds := [] }
/-- A sequence with a folio in the pool and one in its backing store, on its way between them; within a STEP or not. -/
def spilling (inStep : Bool) : State :=
  withCmd (cm 0x60 [] 0 []) { ctx0 with seqs := [(1, { gen := 0, key := 5, cat := [(0, { filled := 3, alloc := 1 }), (65536, { filled := 3, spilled := true, spillAt := 2 })] })]
                                        gens := [(0, { body := gen0 })], kernels := [{ krun0 (if inStep then [{ sid := 1, append := 0 }] else []) [1] with ended := [] }] }
/-- A context whose scrub runs, with the CLOSE_CONTEXT that waits for it. -/
def scrubbed : State :=
  { withCmd (rel { cm 0x02 [] 0 [] with ring := .admin }) { st := .scrubbing, closeCmd := some 1, scrubKind := 0 } with rings := [(4096, ring0)] }
theorem witness_ContextWork :
    (waitingCtx.serving = true ∧ waitingCtx.turn.st.counts = true ∧ (waitingCtx.ctx 0).st = .waiting ∧
      (waitingCtx.chooseCores 0 (waitingCtx.placeable 0) true).any (fun l =>
        l.zipIdx.all fun e => waitingCtx.fits 0 e.2 e.1) = true) ∧
    (((spilling false).ctx 0).spillBusy 1 = true ∧ ((spilling false).ctx 0).inStep 1 = false) ∧
    (((spilling true).ctx 0).spillBusy 1 = true ∧ ((spilling true).ctx 0).inStep 1 = true ∧ ((spilling true).ctx 0).copiesDue 1 = false) ∧
    (let s : State := { withCmd (cm 0x60 [] 0 []) ctx1 with host := { link := .full } }
     s.ioOpen = true ∧ s.serving = true ∧ (0 : Word).toNat % 256 = 0 ∧ s.mayReset 0 = true) ∧
    (let m := rel { cm 0x02 [] 0 [] with ring := .admin }
     scrubbed.serving = true ∧ (scrubbed.ctx 0).st = .scrubbing ∧ scrubbed.cmd m.handle = some m ∧ m.whole = none ∧ m.failed = [] ∧
      (scrubbed.ctx 0).closeCmd = some m.handle ∧ (scrubbed.ctx 0).orphan = false ∧ (scrubbed.ctx 0).scrubKind = 0) := by decide +kernel
theorem witness_OrderStepCommands :
    (∀ e ∈ [(0x12, 1), (0x61, 5), (0x61, 6), (0x71, 0)],
      let m := cm e.1 [e.2] 0 []
      (withCmd m ctx1).Waits m ∧ (withCmd m ctx1).depsFailed m = false ∧ (withCmd m ctx1).condsMet m = true ∧ (withCmd m ctx1).cmds = [m] ∧
        m.flags.testBit 1 = false) ∧
    (let m := cm 0x61 [5] 0 []
     leAt m.body 0 8 ≤ (withCmd m ctx1).turn.count.toNat) ∧
    (let m := { cm 0x61 [6] 0 [] with deadline := some 50 }
     (withCmd m ctx1).Waits m ∧ (withCmd m ctx1).condsMet m = true ∧ (withCmd m ctx1).turn.count.toNat < leAt m.body 0 8 ∧ (withCmd m ctx1).deadlineNow m = false) ∧
    (let m := cm 0x12 [1] 0 []
     (withCmd m ctx1).genReady 0 (leAt m.body 0 2) = true ∧ (withCmd m ctx1).roomFor m = true) := by unfold State.Waits; decide +kernel

/-! ### Collectives -/

/-- A buffer in scratchpad. -/
def buf (a n : Nat) : CollBuf := { addr := a, len := n, kind := 1, core := 0 }
/-- An all-reduce of two FP32 elements between nodes 3 and 5. -/
def coll1 : CollRun :=
  { group := 1, cseq := 2, members := [(3, 0), (5, 0)], rank := 0, wbase := 4, depth := 2, op := 0x11, dtype := 7, redop := 0, root := 0, window := 0, stallTurns := 5, limitTurns := 0, src := buf 0 8, dst := buf 512 8, work := buf 1024 64, countsAt := 0, drawKey := 0, orgR := 0, orgC := 0, check := 77, winOpen := true, released := true, begun := true }
/-- The collective as the work of a command on node 3. -/
def collCmd (k : CollRun) : Cmd := { rel (cm 0x52 [] 0 []) with work := .coll k }
def withColl1 (k : CollRun) : State :=
  { withCmd (collCmd k) { ctx0 with lcores := [(0, { lcore0 with rows := bytesAt [(0, le 4 0x3F800000 ++ le 4 0x40000000), (1024, le 4 0 ++ le 4 0x40400000)] })] } with
      net := { node := some 3, enabled := 255, routes := [(5, { valid := true, port := 0 })] }
      fabric := { ports := [(0, { st := .up, lanes := 4, authed := true, credits := [100, 100, 100], credMax := [100, 100, 100], version := 0x0100 })] } }
/-- Its stages: waiting, its count table full and agreeing, or not, its counts checked, its chunk reduced, stalled. -/
def entry (check rank : Nat) : Bytes := le 4 check ++ le 2 rank ++ le 10 0 ++ le 8 1 ++ le 8 1
def table (check : Nat) : List Host.Cell := bytesAt [(0, entry 77 0), (32, entry check 1)]
def collFull (check : Nat) : CollRun := { coll1 with tableGot := [0, 1], table := table check }
def collChecked : CollRun := { collFull 77 with checked := true, counts := [[1, 1], [1, 1]], recv := [(2, 1, 0, 4)] }
def collPut1 (st : Option Nat) : CollPut := { tag := 9, rank := 1, region := 1, off := 0, data := [1, 2, 3, 4], status := st }
def collReduced : CollRun := { collChecked with reduced := true, recv := [(2, 1, 0, 4), (1, 1, 0, 4)], puts := [collPut1 (some 0)] }
def collStalled : CollRun := { coll1 with stall := 10, limitTurns := 5, puts := [collPut1 (some 1)] }
/-- What R432 compares. -/
def agrees (c : CollRun) : Bool × Bool × Bool :=
  let ent := (List.range c.p).map fun i => sliceAt (Tab.span c.table 0 0 (c.p * c.entryLen)) (i * c.entryLen) c.entryLen
  let c' := { c with checked := true, counts := ent.map fun b => (List.range c.p).map fun j => leAt b (16 + 8 * j) 8 }
  ((ent.zipIdx).all fun b => leAt b.1 0 4 == c.check && leAt b.1 4 2 == b.2, c'.matrixOk, c'.longEnough)
theorem witness_CollectiveSteps_counts :
    ∀ c ∈ [collFull 77, collFull 78],
      (withColl1 c).cmd 1 = some (collCmd c) ∧ (withColl1 c).serving = true ∧ (collCmd c).whole = none ∧ (withColl1 c).collTableFull 0 c = true := by decide +kernel
theorem witness_CollectiveSteps_agree : agrees (collFull 77) = (true, true, true) ∧ (agrees (collFull 78)).1 = false := by decide +kernel
theorem witness_CollectiveSteps_reduce :
    let c := collChecked
    let s := withColl1 c
    let n := 4 * c.chunk.2.1
    (s.cmd 1 = some (collCmd c) ∧ c.checked = true ∧ isReduction c.op = true ∧ c.reduced = false ∧ c.chunk.2.1 ≠ 0 ∧
      ((List.range c.p).all fun i => c.workFrom i ≤ c.got 2 i) = true ∧ s.bufReady 0 c.src = true ∧ s.bufReady 0 c.dst = true ∧ s.bufReady 0 c.work = true) ∧
    (s.start.bufRead 0 1 c.src (4 * c.chunk.1) n).any (fun r => !r.2.2 && (r.1.bufRead 0 1 c.work 0 (n * c.p)).any fun w =>
      !w.2.2 && w.1.bufFits 0 c.dst (4 * c.orig c.rank) n) = true := by decide +kernel
theorem witness_CollectiveSteps_end :
    (let c := collReduced
     let m := collCmd c
     (withColl1 c).cmd 1 = some m ∧ (withColl1 c).serving = true ∧ c.released = true ∧ (List.range m.nparts).all (c.partOver m) = true ∧
      c.puts.all CollPut.isOver = true ∧ (withColl1 c).bufReady 0 c.dst = true ∧
      ((withColl1 c).collsOf 0).all (fun g => g.1 == 1 || g.2.winOpen || g.2.win != c.win) = true) ∧
    (let c := collStalled
     (withColl1 c).cmd 1 = some (collCmd c) ∧ c.released = true ∧ c.stall ≠ 0 ∧ c.reported ≠ c.stall ∧ c.stall % (withColl1 c).stallTurnsOf c = 0 ∧
      c.limitTurns ≠ 0 ∧ c.limitTurns ≤ c.stall ∧ (c.puts.find? fun u => u.tag == 9 && u.again) = some (collPut1 (some 1))) := by decide +kernel

/-! ### Messages -/

/-- A PUT of eight bytes from context 0 of node 5 to window 1 of context 0 of node 3. -/
def putHdr : MsgHdr := { hdr0 with mtype := 1, dstNode := 3, srcNode := 5, window := 1, len := 8, tag := 9, npart := 1 }
def atomicMsg (op : Nat) : Msg := { hdr := { putHdr with mtype := 3, op := op }, data := le 8 5 ++ le 8 77 }
/-- The message came over the hub: its sender is node 3. -/
def viaHub (m : Msg) : Msg := { m with hdr := { m.hdr with srcNode := 3 } }
/-- Node 3 with the message in the hub's queue, or at port 0, and an operation with TAG 9 of its own under way, or waiting to be resent. -/
def remoteRows : List Host.Cell := bytesAt [(512, le 8 77)]
def remotePut : Bytes := le 4 0 ++ [7, 0] ++ le 2 5 ++ le 6 0 ++ le 2 0 ++ le 8 (ap 0) ++ le 4 8 ++ le 3 0 ++ [1] ++ le 12 0 ++ le 20 0
def node3 (hub : Bool) (q : List Msg) (waiting : Bool) : State :=
  { withCmd (cm 0x60 [] 0 []) { ctx0 with lcores := [(0, { lcore0 with rows := remoteRows, slots := [] })]
                                          windows := [(1, { kind := 0, ops := 15, core := 0, base := 512, bytes := 1024, writers := [(5, 0), (3, 0)] })] } with
      net := { node := some 3, enabled := 255, routes := [(5, { valid := true, port := 0 })] }
      cores := [(0, { core0 with remotes := [{ block := remotePut, codeOff := 0, tag := 9, sent := true, waiting := waiting }] })]
      fabric := { hubQ := if hub then q else [], inOps := [{ inOp0 with srcNode := 5, tag := 9, via := .port 0, hdr := putHdr }]
                  outOps := if waiting then [] else [{ tag := 9, ctx := 0, lcore := 0, node := if hub then 3 else 5, op := 1, len := 8, port := if hub then none else some 0 }]
                  ports := [(0, { st := .up, lanes := 4, partner := 5, authed := true, credits := [100, 100, 100], credMax := [100, 100, 100], version := 0x0100, inbox := if hub then [] else q })] } }

/-- The tests of `State.Taken` as a Bool. -/
def takes (s : State) (v : Via) (m : Msg) : Bool :=
  s.serving && s.arriving v m && (match v with
    | .hub => true
    | .port p => s.genuine p m.hdr && msgOk m && s.isSelf m.hdr.dstNode && !(decide (m.hdr.mtype ≤ 3) && (s.port p).abusers.contains m.hdr.srcNode))
theorem takes_Taken (s : State) (v : Via) (m : Msg) (h : takes s v m = true) : s.Taken v m := by
  unfold takes at h
  cases v with
  | hub => simp at h; exact ⟨h.1, h.2, fun p e => by cases e⟩
  | port q =>
    simp at h
    refine ⟨h.1.1, h.1.2, fun p e => ?_⟩
    cases e
    exact ⟨h.2.1.1.1, h.2.1.1.2, h.2.1.2, fun n => by rcases h.2.2 with l | l; · omega
                                                      · exact l n.2⟩
/-- A message at the port, and over the hub. -/
def both (m : Msg) : List (State × Via × Msg) := [(node3 false [m] false, .port 0, m), (node3 true [viaHub m] false, .hub, viaHub m)]

theorem witness_RemoteOperations_put :
    (∀ e ∈ both { hdr := putHdr, data := le 8 77 } ++ both { hdr := { putHdr with poison := true }, data := le 8 77 }, takes e.1 e.2.1 e.2.2 = true ∧
      e.2.2.hdr.mtype = 1 ∧ e.2.2.hdr.part = 0 ∧ e.2.2.hdr.npart = 1 ∧ e.1.collWin 0 e.2.2.hdr.window = .none ∧ e.1.windowCheck e.2.1 e.2.2.hdr = none ∧
      (e.1.window 0 e.2.2.hdr.window).isSome = true) ∧
    (∀ e ∈ both { hdr := { putHdr with window := 7 }, data := le 8 77 } ++ both { hdr := { putHdr with roff := 0x10000 }, data := le 8 77 }, takes e.1 e.2.1 e.2.2 = true ∧
      e.1.collWin 0 e.2.2.hdr.window = .none ∧ (e.1.windowCheck e.2.1 e.2.2.hdr).isSome = true) := by decide +kernel
theorem witness_RemoteOperations_get :
    ∀ e ∈ both { hdr := { putHdr with mtype := 2, op := 1 }, data := [] }, takes e.1 e.2.1 e.2.2 = true ∧ e.2.2.hdr.mtype = 2 ∧
      e.1.collWin 0 e.2.2.hdr.window = .none ∧ e.1.windowCheck e.2.1 e.2.2.hdr = none ∧ (e.1.window 0 e.2.2.hdr.window).isSome = true := by decide +kernel
theorem witness_RemoteOperations_atomic :
    ∀ op ∈ [0x10, 0x11, 0x12, 0x13, 0x14, 0x15, 0x16], ∀ e ∈ both (atomicMsg op), takes e.1 e.2.1 e.2.2 = true ∧
      e.1.collWin 0 e.2.2.hdr.window = .none ∧ e.1.windowCheck e.2.1 e.2.2.hdr = none ∧
      (e.1.window 0 e.2.2.hdr.window).any (fun w => !((e.1.start.take e.2.1 e.2.2).windowRead 0 w e.2.2.hdr.roff 8).2.2) = true := by decide +kernel
theorem witness_RemoteOperations_answers :
    (∀ st ∈ [0, 0x0C], ∀ e ∈ both { hdr := { putHdr with mtype := 5, op := 1, status := st }, data := [] }, takes e.1 e.2.1 e.2.2 = true ∧
      (e.1.outOp e.2.1 e.2.2.hdr).any (fun o => o.coll == none) = true) ∧
    (∀ e ∈ both { hdr := { putHdr with mtype := 4, op := 1 }, data := le 8 99 }, takes e.1 e.2.1 e.2.2 = true ∧
      (e.1.outOp e.2.1 e.2.2.hdr).any (fun o => o.coll == none && o.op == 1) = true) ∧
    (∀ ty ∈ [4, 5], let m : Msg := viaHub { hdr := { putHdr with mtype := ty, op := 1, tag := 1 }, data := le 8 99 }
      takes (node3 true [m] false) .hub m = true ∧ (node3 true [m] false).outOp .hub m.hdr = none) := by decide +kernel
theorem witness_RemoteOperations_own :
    (let s := node3 false [] true
     s.serving = true ∧ (s.resender 9).any (fun e => (let g := s.start.modRemote e.1 e.2.1 9 fun r => { r with waiting := false }
      (rblkOf e.2.2.block).node ∉ s.fabric.down && !s.isSelf (rblkOf e.2.2.block).node && s.routeFor (some e.1) (rblkOf e.2.2.block).node == some 0 &&
        (g.launchOp e.1 e.2.1 (g.eng e.1 e.2.1).handle e.2.2 (some 0)).2 == none)) = true) ∧
    (let s := node3 false [] false
     (s.fabric.outOps.find? fun o => o.tag == 9 && o.port.isSome).isSome = true ∧
      (s.fabric.inOps.find? fun o => o.srcNode == 5 && o.srcCtx == 0 && o.tag == 9).isSome = true ∧ s.fabric.down.length < 1024 ∧ 7 ∉ s.fabric.down) := by decide +kernel

/-! ### Ports -/

/-- Port 0 in a state, its partner node 5. -/
def portIn (st : PortState) : Port :=
  { st := st, lanes := 4, partner := 5, partnerDev := 88, authed := true, credits := [100, 100, 100], credMax := [100, 100, 100], version := 0x0100, rxNext := 7, retry := [(3, []), (4, [])], txSeq := 5 }
/-- Node 3 with that port; its owner has the admin's and the operator's role, and device 88 may be a partner. -/
def withPort (o : Port) : State :=
  { withCmd (cm 0x60 [] 0 []) ctx0 with net := { node := some 3, enabled := 255, routes := [(5, { valid := true, port := 0 })] }, fabric := { ports := [(0, o)] }
                                        sec := { allow := [(88, 1)], idents := [(1, [.admin, .operator])], owned := true } }
/-- The owner, over TLS. -/
def owner : Client := { src := 1, tls := true, cert := 1 }
/-- The partner's HELLO. -/
def hello : Hello := { lo := 0x0100, hi := 0x0101, node := 5, device := 88, lanes := 4, credits := [10, 10, 10], lastSeq := 4 }
theorem witness_PortStates :
    (∀ st ∈ [PortState.dark, .training, .negotiating, .authenticating, .up, .recovering], (withPort (portIn st)).portLive 0 = true ∧
      ((withPort (portIn st)).port 0).st = st ∧ ((withPort (portIn st)).port 0).darkHeld = false) ∧
    ((withPort (portIn .negotiating)).net.node = some 3 ∧ linkVersion hello.lo hello.hi = some 0x0101 ∧ linkVersion 0x0200 0x0200 = none) ∧
    (hello.device = (portIn .recovering).partnerDev ∧ hello.node = (portIn .recovering).partner) ∧
    ((withPort (portIn .authenticating)).admits 88 1 = true ∧ (portIn .authenticating).authStep = 0) ∧
    ((withPort (portIn .up)).board.domains.getLsbD 5 = true ∧ (withPort (portIn .up)).fabric.laserFault = false) := by decide +kernel
theorem witness_PortStates_reset : (withPort (portIn .up)).Allows owner roleConfig := by unfold State.Allows; decide +kernel
/-- A DATA flit with one GET. -/
def flit (seq : Nat) : Flit :=
  { seq := seq, ack := 3, nak := false, credVc := 3, cred := 0, epoch := 0, fecOk := true, fecCorrected := 0, gcmOk := true, msgs := [{ hdr := { putHdr with mtype := 2, op := 1 }, data := [] }] }
theorem witness_PortTraffic :
    (let o := portIn .up
     (withPort o).flits 0 = true ∧ (flit 7).fecOk = true ∧ (flit 7).gcmOk = true ∧ (flit 7).epoch % 2 = o.epochRx % 2 ∧ 3 ≤ (flit 7).credVc ∧ (flit 7).seq = o.rxNext ∧ (flit 8).seq ≠ o.rxNext ∧
      o.nakOut = false ∧ (if o.nakSeq = o.rxNext then o.nakRun + 1 else 1) < 8 ∧ o.retry ≠ [] ∧ (if o.nakRxSeq = 3 then o.nakRx + 1 else 1) < 8 ∧
      (∀ m ∈ (flit 7).msgs, [1, 2, 3, 4, 5].contains m.hdr.mtype = true ∧
        ([0, 1, 2].any fun vc => channelUnits vc < (modAt (fun c => c + msgUnits m) (msgVc m.hdr) o.rxUsed).getD vc 0) = false)) ∧
    (let o := { portIn .up with nakRx := 7, nakRxSeq := 3 }
     (withPort o).flits 0 = true ∧ 8 ≤ (if o.nakRxSeq = 3 then o.nakRx + 1 else 1)) ∧
    (∀ r ∈ [3, 7], let o := { portIn .up with nakOut := true, nakRun := r, nakSeq := 7 }
      (withPort o).flits 0 = true ∧ o.nakOut = true ∧ (if o.nakSeq = o.rxNext then o.nakRun + 1 else 1) = r + 1) ∧
    (∀ b ∈ [false, true], let o := { portIn .up with stalled := b, waitQ := (flit 7).msgs }
      (withPort o).flits 0 = true ∧ (o.waitQ.any fun m => msgVc m.hdr == 0) = true ∧ o.stalled = b) := by decide +kernel

/-! ### Firmware services, management -/

/-- The image that runs, and a firmware image file of one byte whose digest and version are right. -/
def image0 : Image := { digest := 5, svn := 2, ok := true }
def imageFile : Bytes := fitTo 4096 (le 4 0x4957465A ++ le 2 1 ++ le 2 3 ++ le 4 2 ++ le 4 0 ++ le 8 1 ++ le 8 44 ++ digestBytes (sha512 [9]) ++ le 2 1) ++ [9]
/-- The module with a host, an image and an attestation key, its management's owner with some roles. -/
def serviced : State :=
  { withCmd (cm 0x60 [] 0 []) ctx1 with host := { link := .full, config := true }, fw := { image := image0, running := image0 }, sec := { akExists := true } }
def owned (roles : List Role) (s : State) : State := { s with sec := { s.sec with owned := true, akExists := true, idents := [(1, roles)] } }
/-- It with a staged image, with a transfer under way, and with the SPDM exchanges at a stage. -/
def stagedFw : State := { serviced with fw := { serviced.fw with staged := some image0 } }
def transferring : State := { serviced with fw := { serviced.fw with xferOpen := true, xfer := le 128 7 } }
def spdmAt (n : Nat) : State := { serviced with host := { serviced.host with spdmDoe := n, spdmNet := n, handshake := n == 3 } }
theorem witness_MailboxAndSpdm :
    (serviced.ioOpen = true ∧ serviced.board.stage = .ready ∧ serviced.fw.xferOpen = false ∧ transferring.fw.xferOpen = true ∧
      128 * 1 = transferring.fw.xfer.length ∧ stagedFw.mayActivate = true ∧ serviced.mayActivate = false) ∧
    (∀ tr ∈ [SpdmTransport.doe, .network], serviced.spdmUp tr = true ∧ (spdmAt 3).spdmUp tr = true ∧ serviced.spdmStage tr < 3 ∧ 1 ≤ (spdmAt 1).spdmStage tr ∧
      2 ≤ (spdmAt 2).spdmStage tr ∧ 3 ≤ (spdmAt 3).spdmStage tr) ∧
    (spdmAt 3).host.handshake = true ∧ ({ serviced with host := { serviced.host with session := true } } : State).host.session = true := by decide +kernel

theorem witness_Management_refused :
    (owned [] serviced).mgmtUp = true ∧ owner.src ∉ (owned [] serviced).sec.blocked ∧
      ∀ l ∈ [[Role.admin], [.admin, .operator, .keysvc, .reader], [.admin, .operator], [.keysvc]], (owned [] serviced).permits owner l = false := by decide +kernel
/-- An unowned module, whose claim code is known. -/
def unowned : State :=
  { serviced with sec := { serviced.sec with owned := false }, factory := { serviced.factory with claimDigest := sha512 (claimCode (le 16 3)) } }
theorem witness_Management_claim :
    unowned.mgmtUp = true ∧ unowned.board.stage ≠ .recovery ∧ owner.src ∉ unowned.sec.blocked ∧ owner.tls = true ∧ unowned.sec.owned = false ∧
      unowned.claimOk (le 16 3) [5] = true ∧ (owned [] serviced).sec.owned = true := by decide +kernel
theorem witness_Management_blocked :
    let s : State := { owned [] serviced with sec := { (owned [] serviced).sec with blocked := [1] } }
    owner.src ∈ s.sec.blocked ∧ s.mgmtUp = true := by decide +kernel
theorem witness_Management_roles :
    (owned [.admin] serviced).Allows owner [.admin] ∧ (owned [.reader] serviced).Allows owner [.admin, .operator, .keysvc, .reader] ∧
    (owned [.operator] serviced).Allows owner [.admin, .operator] ∧ (owned [.keysvc] serviced).Allows owner [.keysvc] := by unfold State.Allows; decide +kernel
theorem witness_Management_changes :
    (∀ c ∈ [Change.uniformWidth 60, .globalBoundary 5, .capM 500], (owned [.admin] serviced).Allows owner (changeRoles c) ∧ (owned [.admin] serviced).changeOk c = true) ∧
    changeStep (.uniformWidth 60) ≠ .now ∧ changeStep (.trustAnchors [3]) = .now ∧
    ((owned [.admin] serviced).Allows owner (changeRoles (.trustAnchors [3])) ∧ (owned [.admin] serviced).changeOk (.trustAnchors [3]) = true) ∧
    ((owned [.admin] serviced).Allows owner (changeRoles (.uniformWidth 3)) ∧ (owned [.admin] serviced).changeOk (.uniformWidth 3) = false) := by
  unfold State.Allows; decide +kernel
/-- Collection 3, with no load, not mapped or mapped by a generation of context 0; a key that has expired. -/
def coll3 (x : Ctx) : State := { owned [.operator] serviced with colls := [(3, { part := 0, atUse := true, width := 64, body := {} })], ctxs := [(0, x)] }
def key7 : WeightKey := { digest := 7, key := [], funcs := 1, expires := 4, refOk := true }
def withKey : State := { owned [.keysvc] serviced with sec := { (owned [.keysvc] serviced).sec with wkeys := [key7] } }
theorem witness_Management_requests :
    (let s := owned [.operator] serviced
     [ctrAddr 1 256 0 3].all counterAt = true ∧ ({ s with units := unitsIdle.units } : State).mayRetest (.core 0) = true ∧ s.serving = true ∧ s.collOk 1 0 true 64 = true ∧ s.sec.subs < 8 ∧
      (s.mgmtAnswer .config 0 0).1.isSome = true) ∧
    (let s : State := { owned [.operator] serviced with host := { link := .full }, cmds := [] }
     s.mayReset 0 = true) ∧
    (let s := coll3 {}
     s.serving = true ∧ (Tab.opt s.colls 3).any (fun k => k.load.isNone && k.body.manifest.isNone && (s.collRun k (le 160 1)).isSome) = true ∧ s.mappers 3 = []) ∧
    ((coll3 { ctx1 with gens := [(0, { ref := some 3 })] }).mappers 3 ≠ []) ∧
    ((withKey.sec.wkeys.any fun k => k.digest == 7) = true ∧
      (withKey.sec.wkeys.any fun k => k.digest == 7 && k.expires != 0 && k.expires ≤ withKey.turn.count) = true) := by decide +kernel

theorem witness_FirmwareUpdate_image : serviced.imageOk imageFile true = true ∧ serviced.imageOk [1] true = false := by decide +kernel
/-- In the recovery loader; an activation under way; a field area to be written; a heartbeat long ago. -/
def recovering (staged : Option Image) : State := { serviced with board := { serviced.board with stage := .recovery }, fw := { serviced.fw with staged := staged } }
def activating : State := { serviced with fw := { serviced.fw with staged := some image0, activation := some { turn := none } } }
def watched (keep : Bool) : State :=
  { serviced with now := 6000000, params := { serviced.params with watchdogKeep := keep }, board := { serviced.board with hbSeen := true, hbAge := [(1, 100)] } }
theorem witness_FirmwareUpdate :
    (∀ s ∈ [stagedFw, serviced], (owned [.operator] s).mgmtUp = true ∧ (owned [.operator] s).permits owner [.admin, .operator] = true ∧
      owner.src ∉ (owned [.operator] s).sec.blocked ∧ (owned [.operator] s).fw.xferOpen = false) ∧
    ((owned [.operator] stagedFw).mayActivate = true ∧ (owned [.operator] serviced).mayActivate = false) ∧
    (activating.mgmtUp = true ∧ activating.board.stage ≠ .recovery ∧ activating.fw.activation = some { turn := none }) ∧
    ((recovering none).board.stage = .recovery ∧ (recovering none).factory.ok = true ∧ (recovering (some image0)).stagedOk = some image0) ∧
    (let s : State := { serviced with fw := { serviced.fw with fieldDirty := true, answers := 2 } }
     s.mgmtUp = true ∧ s.board.stage ≠ .tripped ∧ s.fw.fieldDirty = true) ∧
    (serviced.board.stage = .ready ∧ 2 ∉ serviced.board.faulted) ∧
    (∀ k ∈ [false, true], (watched k).board.stage = .ready ∧ (watched k).board.hbSeen = true ∧ (watched k).watchdogOn = true ∧ (watched k).powered = true ∧ 1 ∉ (watched k).board.hbLate ∧ 5000000 ≤ (watched k).hbOld 1 ∧ (watched k).params.watchdogKeep = k) := by
  decide +kernel

/-! ### Setup registers -/

/-- An administrative ring, and its header. -/
def adminRing : Ring := { ring0 with prod := 3, cons := 2 }
def adminHeader : Bytes := le 8 0 ++ le 8 0x2000 ++ le 8 0 ++ [4, 4, 1, 1] ++ le 2 1 ++ le 2 0 ++ le 2 0x0100 ++ le 2 0x0103 ++ le 28 0
/-- An event queue with one record to deliver. -/
def evq : EvQueue := { base := 0x1201, held := [{ code := 0x0104, sev := 2 }], written := 5, head := 3 }
def setup : State := { serviced with ev := { log := [{ code := 0x0104, sev := 2, recno := 3 }], queues := [(0, evq)] } }
theorem witness_SetupRegisters_access :
    setup.ioOpen = true ∧ setup.board.stage ≠ .recovery ∧ (0x100 : Nat) % 8 = 0 ∧ setup.readReg 0x20008 ≠ none ∧ ownRow 0x30000 = false ∧ setup.readReg 0x30000 = none ∧
      ownRow 0 = false ∧ setup.readReg 0 ≠ none ∧ setup.regs.hostCapLock = false ∧ setup.functionOn 0 = true := by decide +kernel
theorem witness_SetupRegisters_admin :
    (setup.regs.adminEnable = false ∧ setup.ringService = true ∧ setup.ring .admin = none ∧ (setup.headerCheck 0 (fitTo 128 adminHeader)).1 = 0 ∧
      (setup.headerCheck 0 (fitTo 128 adminHeader)).2.1 = 0) ∧
    (let s : State := { setup with rings := [(4096, adminRing)], regs := { hostCapLock := true, adminEnable := true } }
     s.regs.adminEnable = true ∧ s.regs.hostCapLock = true ∧ s.ring .admin = some adminRing ∧ adminRing.enabled = true ∧ adminRing.mmio = true ∧
      (3 : Nat) / 2 ^ 48 % 2 ^ 15 = 0 ∧ ahead32 (3 % 2 ^ 32) adminRing.cons.toNat ≤ 2 ^ adminRing.sqLog) ∧
    (let s : State := { setup with host := { setup.host with link := .ioOnly } }
     s.ioOpen = true ∧ s.ringService = false) := by decide +kernel
theorem witness_SetupRegisters_events :
    (Tab.look setup.ev.queues {} 0).held = { code := 0x0104, sev := 2 } :: [] ∧ setup.hostWrites = true ∧ setup.mgmtUp = true ∧ (Tab.look setup.ev.queues {} 0).room = true := by
  decide +kernel
/-- A window of four frames, a page of the fourth region given out read-only, a closed ledger, a record to copy. -/
def windowsSet : State :=
  { setup with params := { cxlMem := 4 }, mem := { avail := 15, retired := [520] }, closedLedgers := [{ ctx := 4, openTurn := 9, records := [] }] }
theorem witness_SetupRegisters_service :
    windowsSet.serving = true ∧ (3 < windowsSet.params.cxlMem ∧ windowsSet.params.cxlMem ≤ 255) ∧
    ((bitAt 0x8000000000000001 63 && windowsSet.frameRefused (field 0x8000000000000001 0 13)) = true) ∧ ((bitAt 5 63 && windowsSet.frameRefused (field 5 0 13)) = false) ∧
    (let s : State := { windowsSet with regs := { treadSel := 3, treadState := 1 } }
     s.regs.treadState = 1 ∧ (s.recordAt s.regs.treadSel s.regs.treadLedger).isSome = true) ∧
    (let s : State := { windowsSet with regs := { treadSel := 0xFFFF, treadState := 1, treadLedger := 9 } }
     s.regs.treadState = 1 ∧ s.recordAt s.regs.treadSel s.regs.treadLedger = none ∧
      (s.closedLedgers.any fun l => l.ctx == (260 : Word).toNat % 256 && l.openTurn == s.regs.treadLedger) = true ∧
      (s.closedLedgers.any fun l => l.ctx == (5 : Word).toNat % 256 && l.openTurn == s.regs.treadLedger) = false) := by decide +kernel

/-! ### Start, resets, keeper mode -/

/-- A Volud that is owned, with function 0 and two virtual functions in use, and at another stage. -/
def live : State :=
  owned [.admin] { serviced with host := { serviced.host with vfs := 2, ats := [0, 1], atc := [(0, 5), (1, 6)], unmasked := [3, 2048 + 5], pendingMsix := [4, 2048 + 3], snoop := [5] } }
def atStage (st : Stage) : State := { live with board := { live.board with stage := st } }
/-- Before power on, with an image in flash. -/
def unpowered : State := { State.reset with fw := { image := { image0 with major := 1 } } }
/-- Context 0 in another state. -/
def ctxAs (x : Ctx) : State := { live with ctxs := [(0, x)] }
theorem witness_StartAndResets_start :
    (unpowered.board.stage = .off ∧ unpowered.factory.ok = true ∧ unpowered.fw.image.major = 1 ∧ unpowered.fw.svnFloor ≤ unpowered.fw.image.svn) ∧
    ({ unpowered with factory := { unpowered.factory with ok := false } } : State).factory.ok = false ∧ live.board.stage ≠ .off ∧
    live.permits owner [.admin, .operator] = true ∧ live.mgmtUp = true ∧
    (∀ k ∈ [[], [KeeperCause.request]], let s : State := { atStage .cores with board := { (atStage .cores).board with keeper := k } }
      s.board.stage = .cores ∧ s.sec.akExists = true ∧ s.mem.avail ≠ 0 ∧ s.fw.image.ok = true ∧ s.board.warm = none ∧ s.board.keeper = k) := by decide +kernel
theorem witness_StartAndResets_resets :
    (live.board.resetAsserted = false ∧ live.mayWarm = true ∧ (atStage .hub).mayWarm = false ∧ live.linkUp = true ∧ live.mgmtUp = true) ∧
    (let s : State := { live with board := { live.board with linkDownCount := true }, host := { live.host with link := .down } }
     s.mayWarm = true ∧ s.board.linkDownCount = true ∧ s.host.link = .down ∧ s.linkUp = false ∧ s.board.resetAsserted = false ∧ 1 ∉ s.board.faulted) ∧
    ({ live with board := { live.board with resetAsserted := true } } : State).board.resetAsserted = true := by decide +kernel
theorem witness_StartAndResets_contexts :
    (let x : Ctx := { ctx1 with st := .idle, req := { func := 1 } }
     (ctxAs x).linkUp = true ∧ 1 ≤ (ctxAs x).host.vfs ∧ (ctxAs x).board.stage ≠ .recovery ∧ (ctxAs x).ctxs = [(0, x)] ∧ x.req.func = 1 ∧ (ctxAs x).serving = true ∧
      x.opening = none ∧ (let s : State := { atStage .cores with ctxs := [(0, x)] }; s.serving = false ∧ x.st ≠ .closed ∧ x.st ≠ .scrubbing ∧ s.linkUp = true)) ∧
    (let x : Ctx := { ctx1 with st := .recoverable }
     (ctxAs x).serving = true ∧ ((ctxAs x).ctx 0).st = .recoverable ∧ ((ctxAs x).ctx 0).closeCmd = none) := by decide +kernel

theorem witness_KeeperAndDomains :
    (live.powered = true ∧ live.mgmtUp = true ∧ live.board.inputBad = false ∧ (atStage .keeper).board.stage = .keeper ∧ (atStage .keeper).mgmtUp = true ∧
      (atStage .keeper).permits owner [.admin, .operator] = true) ∧
    (let s : State := { live with board := { live.board with inputBad := true, keeper := [.inputRange] } }
     s.mgmtUp = true ∧ s.board.inputBad = true) ∧
    (∃ q < 4, ∃ d ∈ [0, 3, 4, 45, 8], 6 + q ∈ dependents d) ∧ (∀ d ∈ [0, 3, 4, 45, 8], live.board.domains.getLsbD d = true ∧ live.board.stage ≠ .off ∧ live.board.stage ≠ .tripped) ∧
    (let s := ctxAs { ctx1 with kernels := [krun0 [] []] }
     s.serving = true ∧ (s.core 0).owner = some (0, 0) ∧ ((s.ctx 0).kernel (s.core 0).handle).isSome = true) ∧
    (∀ q ∈ [0, 3], live.mayResetQuad q = true) ∧ live.gov.brake = false ∧
    ({ live with gov := { live.gov with brake := true } } : State).gov.brake = true := by decide +kernel

/-! ### Turns, power and heat -/

/-- A turn unit in a state, late in turn 5, with a source. -/
def turnIn (st : TurnState) (src : Option TurnSource) : TurnUnit :=
  { st := st, params := { source := src, inPorts := 1, outPorts := 2 }, count := 5, phase := 99000, ptp := { gm := some 4, pendingRx := some (50, 3), delayReq := some (40, 50, 60) } }
/-- The Volud with that turn unit and two ports up. -/
def timed (u : TurnUnit) : State :=
  { live with turn := u, fabric := { ports := [(0, { st := .up, lanes := 4, authed := true, delay := 3 }), (1, { st := .up, lanes := 4, authed := true, delay := 3 })] }
              now := 1000, params := { live.params with sealEvery := 5 } }
/-- The mark of boundary 6. -/
def mark6 : Mark := Mark.mk 6 100000 2000 77 3
theorem witness_TurnsAndTime_boundaries :
    (let s := timed { turnIn .free (some .internal) with phase := 100000 }
     s.dueTurn = some 6 ∧ s.board.domains.getLsbD 3 = true ∧ s.board.stage ≠ .recovery) ∧
    (let u := turnIn .free (some .internal)
     let s := timed u
     s.markSource.isSome = true ∧ u.st.counts = true ∧ u.emitted = false ∧ u.placed = none ∧ u.expect ≤ u.phase.toNat + u.params.lead ∧ s.markPorts = [1]) ∧
    (let u := { turnIn .free (some .internal) with phase := 0xFFFFFFFF }
     u.st.counts = true ∧ u.stretching = false ∧ u.phase = BitVec.allOnes 32) := by decide +kernel
theorem witness_TurnsAndTime_marks :
    (let u := turnIn .locked (some .marks)
     let s := timed u
     (s.port 0).st = .up ∧ s.markOk 0 mark6 = true ∧ s.markOk 0 (Mark.mk 6 100000 2000 77 16) = false ∧ u.params.source = some .marks ∧ u.st = .locked ∧
      u.followed = none ∧ u.conflict = false ∧ mark6.turn.toNat = u.count.toNat + 1) ∧
    (let s := timed (turnIn .free (some .internal))
     s.markOk 0 mark6 = true ∧ s.turn.params.source ≠ some .marks) ∧
    (2 ≤ ({ turnIn .locked (some .marks) with silent := 3 } : TurnUnit).silent ∧ (turnIn .locked (some .marks)).silent < 2 ∧
      ({ turnIn .locked (some .marks) with validPrev := [1, 0] } : TurnUnit).validPrev = 1 :: [0]) ∧
    (let u := { turnIn .holdover (some .marks) with held := 20, conflict := true }
     u.st = .holdover ∧ u.params.holdLim ≤ u.held ∧ u.conflict = true) := by decide +kernel
theorem witness_TurnsAndTime_ptp :
    let u := turnIn .locked (some .ptp)
    (timed u).mgmtUp = true ∧ (timed u).ptpOn 0 = true ∧ (timed u).ptpOn 5 = false ∧ u.ptp.gm = some 4 ∧ u.ptp.pendingRx = some (50, 3) ∧
      u.ptp.delayReq = some (40, 50, 60) ∧ u.st = .locked := by decide +kernel
theorem witness_TurnsAndTime_changes :
    (let u := turnIn .free (some .internal)
     (timed u).permits owner [.admin, .operator] = true ∧ (timed u).mgmtUp = true ∧ (timed u).htUp = true ∧ owner.src ∉ (timed u).sec.blocked ∧ u.inRange (u.fileTurn none) (.period 50000) = true ∧ u.st.counts = true) ∧
    (let u := turnIn .unset none
     (timed u).permits owner [.admin, .operator] = true ∧ u.inRange (u.fileTurn none) (.period 50000) = true ∧ u.st.counts = false ∧ u.st = .unset ∧ u.params.source = none) ∧
    (let s : State := { timed { turnIn .free (some .internal) with phase := 0 } with ctxs := [(0, { ctx1 with ledger := { records := [], next := 3 } })] }
     s.serving = true ∧ s.turn.st.counts = true ∧ s.turn.phase = 0 ∧ s.params.sealEvery ≠ 0 ∧ s.turn.count.toNat % s.params.sealEvery = 0 ∧ s.unsealedNow ≠ []) ∧
    ({ live with gov := { live.gov with disagree := [0, 11, 0, 0, 0] } } : State).mustUnreconcile = true ∧
    ({ live with gov := { live.gov with measOnly := true, agree := 10 } } : State).mayReconcile = true := by decide +kernel

/-- The governor with quadrant 0 at a point; a tick of its meters. -/
def governed (op run : Nat) : State := { live with gov := { quads := [(0, { op := op }), (1, { op := 3, stretch := true }), (2, { op := 7, hot := true }), (3, { op := 7 })], raiseRun := run, measOnly := true } }
def tick1 (a b : Nat) : TickIn := { meter := 4 * a, raise := [b, b, b, b] }
theorem witness_PowerAndHeat_ticks :
    (let s := governed 2 5
     s.powered = true ∧ s.htUp = true ∧ s.gov.st = .governed ∧ s.gov.forced = false ∧ s.target < s.estimate (tick1 900000 5) ∧ (s.lowerQuad (tick1 900000 5)).isSome = true ∧
      s.estimate (tick1 10 9000000) ≤ s.target ∧ (s.raiseQuad (tick1 10 9000000)).any (fun q =>
        decide (s.target < s.estimate (tick1 10 9000000) + (tick1 10 9000000).raise.getD q 0)) = true) ∧
    (∀ run ∈ [5, 38, 39], let s := governed 2 run
     (s.raiseQuad (tick1 10 5)).any (fun q => decide (s.estimate (tick1 10 5) + (tick1 10 5).raise.getD q 0 ≤ s.target)) = true ∧ s.gov.raiseRun = run) ∧
    (let s := governed 2 5
     (s.quad 0).stretch = false ∧ (s.quad 1).stretch = true) := by decide +kernel
theorem witness_PowerAndHeat_heat :
    (live.board.domains.getLsbD 3 = true ∧ live.powered = true) ∧ (∃ t ∈ (20 : Int) :: [106, 0, 0, 0], (105 : Int) < t) ∧
    (∀ t ∈ (105 : Int) :: [96, 95, 92, 93], t ≤ (105 : Int)) ∧ (live.mgmtUp = true ∧ live.board.stage ≠ .recovery ∧ live.board.stage ≠ .tripped) ∧
    (let s : State := { live with mem := { live.mem with refresh := [(0, 4), (1, 2)], cool := [(0, (0, 1000)), (1, (1000, 1200))] } }
     refreshFloor (Tab.look s.mem.cool (0, 0) 0) = 2 ∧ (2 : Nat) < Tab.look s.mem.refresh 1 0 ∧
       refreshFloor (Tab.look s.mem.cool (0, 0) 1) = 1 ∧ (1 : Nat) < Tab.look s.mem.refresh 1 1) ∧
    (let s : State := { live with gov := { st := .paced, duty := 30, rest := false }, turn := { turnIn .free (some .internal) with phase := 90000 } }
     s.powered = true ∧ s.htUp = true ∧ s.gov.st = .paced ∧ s.gov.rest = false ∧ s.gov.duty < 64 ∧ s.gov.duty * s.turn.expect ≤ 64 * s.turn.phase.toNat) := by decide +kernel

end Sys2Proof.Tests
end

section
/-! SUPPORT. Keeper mode and domains (O58): a regulator fault of HF while no quadrant has power. -/

namespace Sys2Proof.Machine

/-! ## A regulator fault in the recovery loader (R25, R27, R554) -/

/-- The Volud whose image has failed its check (R546): the recovery loader runs, with HM, HX, HT and HF powered and every QF off (R554). -/
def State.inRecovery : State :=
  ({ State.reset with fw := { State.reset.fw with image := { State.reset.fw.image with ok := false } } } : State).recoveryLoader 3

/-- A cold start of a module that has never run reaches that state, where its image fails the check. -/
theorem coldStart_badImage_reset : exec (.coldStart false true false [] [] [] false) State.reset = .next State.inRecovery := rfl

theorem State.inRecovery_domains : State.inRecovery.board.domains = recoveryDomains := rfl

/-- The packages that a fault puts in self-refresh are those of quadrants that lose their power with it (R27). HF faults here, and no quadrant
has any power to lose. -/
theorem regFault_hf_inRecovery : Completes (exec (.regFault 4) State.inRecovery) fun t => t.mem.selfRefresh = 0 := ⟨_, rfl, rfl⟩

/-- Refutes O58: its clause on regulator faults asks that, for every domain but HM, the memory of every quadrant that depends on the domain is in
self-refresh afterwards, also of a quadrant that had no power before. In the recovery loader (R554) HF has power and no quadrant has; REG_FAULT
of HF (4) there takes no quadrant's power away, and leaves the memory of quadrant 0 out of self-refresh. -/
theorem not_keeperAndDomains : ¬ Obligations.KeeperAndDomains := by
  unfold Obligations.KeeperAndDomains
  intro h
  obtain ⟨-, -, -, -, regFaults, -⟩ := h State.inRecovery
  have powered : State.inRecovery.board.domains.getLsbD 4 = true := by rw [State.inRecovery_domains]; decide
  have running : State.inRecovery.board.stage ≠ .off := by decide
  obtain ⟨t, ht, -, -, -, refreshed, -⟩ := regFaults 4 (by decide) powered running
  obtain ⟨u, hu, awake⟩ := regFault_hf_inRecovery
  obtain rfl : t = u := Host.Outcome.next.inj (ht.symm.trans hu)
  have asleep : t.mem.selfRefresh.getLsbD 0 = true := refreshed (by decide) 0 (by decide) (by decide)
  rw [awake] at asleep
  exact absurd asleep (by decide)

end Sys2Proof.Machine
end

section
/-! SUPPORT. A term of an accumulator (O29): its guard units (R103), and what it does to the element it is added to (R107, R108). -/

namespace Sys2Proof.Machine

/-! ## Guard units (R103) -/

/-- The numerator of a value in guard units of window w, 2^(w − 16). -/
theorem Exact.scale_window_n (p : Exact) (w : Int) :
    (p.scale (16 - w)).n = if w ≤ 16 then p.n * 2 ^ (16 - w).toNat else p.n := by
  unfold Exact.scale
  by_cases hw : w ≤ 16
  · rw [if_pos hw, if_pos (by omega), Int.natCast_pow]
    rfl
  · rw [if_neg hw, if_neg (by omega)]

/-- Its denominator. -/
theorem Exact.scale_window_d (p : Exact) (w : Int) :
    ((p.scale (16 - w)).d : Int) = if w ≤ 16 then (p.d : Int) else p.d * 2 ^ (w - 16).toNat := by
  unfold Exact.scale
  by_cases hw : w ≤ 16
  · rw [if_pos hw, if_pos (by omega)]
  · rw [if_neg hw, if_neg (by omega), Int.neg_sub, Int.natCast_mul, Int.natCast_pow]
    rfl

theorem Exact.scale_d_pos {p : Exact} (hp : 0 < p.d) (k : Int) : 0 < (p.scale k).d := by
  unfold Exact.scale
  split
  · exact hp
  · exact Nat.mul_pos hp (Nat.two_pow_pos _)

/-- What `srUnits` answers for a value whose floor and remainder in guard units are known. -/
theorem srUnits_eq {p : Exact} {w f : Int} {r : Nat} (u : Nat) (hdiv : (p.scale (16 - w)).n / (p.scale (16 - w)).d = f)
    (hmod : (p.scale (16 - w)).n % (p.scale (16 - w)).d = r) :
    srUnits p w u = if r = 0 then (f, false) else if u * (p.scale (16 - w)).d < r * 256 then (f + 1, true) else (f, true) := by
  simp only [srUnits, hdiv, hmod, Int.toNat_natCast]

/-- A value that is a whole number of guard units enters as itself, with no loss. -/
theorem srUnits_of_whole {p : Exact} {w f : Int} (u : Nat) (hd : 0 < (p.scale (16 - w)).d)
    (hf : (p.scale (16 - w)).n = f * (p.scale (16 - w)).d) : srUnits p w u = (f, false) := by
  have hdiv : (p.scale (16 - w)).n / (p.scale (16 - w)).d = f := by rw [hf, Int.mul_ediv_cancel _ (by omega)]
  have hmod : (p.scale (16 - w)).n % (p.scale (16 - w)).d = (0 : Nat) := by rw [hf, Int.mul_emod_left]; rfl
  rw [srUnits_eq u hdiv hmod, if_pos rfl]

/-- Floor and remainder of a value that lies strictly between f and f + 1 guard units. -/
theorem ediv_emod_of_between {n d f : Int} (hd : 0 < d) (hlo : f * d < n) (hhi : n < (f + 1) * d) :
    n / d = f ∧ n % d = n - f * d := by
  rw [Int.add_mul, Int.one_mul] at hhi
  exact (Int.ediv_emod_unique hd).2 ⟨by rw [Int.mul_comm d f]; omega, by omega, by omega⟩

/-- A value strictly between f and f + 1 guard units enters as one of the two, as the byte says, and its loss is noted. -/
theorem srUnits_of_between {p : Exact} {w f : Int} (u : Nat) (hd : 0 < (p.scale (16 - w)).d)
    (hlo : f * (p.scale (16 - w)).d < (p.scale (16 - w)).n) (hhi : (p.scale (16 - w)).n < (f + 1) * (p.scale (16 - w)).d) :
    srUnits p w u =
      (if u * ((p.scale (16 - w)).d : Int) < ((p.scale (16 - w)).n - f * (p.scale (16 - w)).d) * 256 then f + 1 else f, true) := by
  obtain ⟨hdiv, hmod⟩ := ediv_emod_of_between (Int.natCast_pos.2 hd) hlo hhi
  obtain ⟨r, hr⟩ := Int.eq_ofNat_of_zero_le (Int.sub_nonneg_of_le (Int.le_of_lt hlo))
  have lossy : r ≠ 0 := by omega
  have draw : (u * ((p.scale (16 - w)).d : Int) < (r : Int) * 256) ↔ u * (p.scale (16 - w)).d < r * 256 := by
    rw [← Int.ofNat_lt, Int.natCast_mul, Int.natCast_mul]
    rfl
  rw [srUnits_eq u hdiv (hmod.trans hr), if_neg lossy, hr]
  by_cases up : u * (p.scale (16 - w)).d < r * 256
  · rw [if_pos up, if_pos (draw.2 up)]
  · rw [if_neg up, if_neg fun h => up (draw.1 h)]

/-! ## Adding a term to an element (R107, R108) -/

/-- The sum of an element and a term rounded to the window w by the byte u, in guard units. -/
def Adding.sum (r : Adding) (w : Int) (key u : Nat) (p : Exact) : Int := (Tab.look r.acc 0 key).toInt + (srUnits p w u).1

/-- An element that is NaR or saturated takes no term. -/
theorem Adding.term_of_closed {r : Adding} {key : Nat} (h : Tab.look r.acc 0 key = accNaR ∨ key ∈ r.sats)
    (last : Bool) (w : Int) (u : Nat) (p : Exact) : r.term last w key u p = r :=
  if_pos (by simpa only [Bool.or_eq_true, decide_eq_true_eq] using h)

section
variable {r : Adding} {key u : Nat} {w : Int} {p : Exact} (legal : Tab.look r.acc 0 key ≠ accNaR) (unsat : key ∉ r.sats)
include legal unsat

/-- Any other element takes the term, and what follows depends on its sum. -/
theorem Adding.term_of_open (last : Bool) : r.term last w key u p =
    if inLim (r.sum w key u p) then
      { r with acc := Tab.put r.acc 0 key (BitVec.ofInt 80 (r.sum w key u p)), lost := r.lost || (srUnits p w u).2 }
    else if last then
      { acc := Tab.put r.acc 0 key (BitVec.ofInt 80 (if r.sum w key u p < 0 then -accLim else accLim))
        sats := key :: r.sats, lost := r.lost || (srUnits p w u).2, past := true }
    else { r with past := true } :=
  if_neg (by simpa only [Bool.or_eq_true, decide_eq_true_eq, not_or] using And.intro legal unsat)

/-- A sum within ±LIM becomes the element's value. -/
theorem Adding.term_of_inLim (last : Bool) (h : inLim (r.sum w key u p) = true) : r.term last w key u p =
    { r with acc := Tab.put r.acc 0 key (BitVec.ofInt 80 (r.sum w key u p)), lost := r.lost || (srUnits p w u).2 } := by
  rw [Adding.term_of_open legal unsat, if_pos h]

/-- In the last attempt a sum beyond ±LIM leaves the element saturated at the bound it passed. -/
theorem Adding.term_saturates (h : inLim (r.sum w key u p) = false) : r.term true w key u p =
    { acc := Tab.put r.acc 0 key (BitVec.ofInt 80 (if r.sum w key u p < 0 then -accLim else accLim))
      sats := key :: r.sats, lost := r.lost || (srUnits p w u).2, past := true } := by
  rw [Adding.term_of_open legal unsat, h, if_neg Bool.false_ne_true, if_pos rfl]

/-- In an attempt before the last a sum beyond ±LIM only loses the attempt. -/
theorem Adding.term_loses_attempt (h : inLim (r.sum w key u p) = false) : r.term false w key u p = { r with past := true } := by
  rw [Adding.term_of_open legal unsat, h, if_neg Bool.false_ne_true, if_neg Bool.false_ne_true]

end

/-- Settles O29: R103 on the value in guard units, then R107 and R108 case by case of the element and of the sum. -/
theorem accumulatorTerm : Obligations.AccumulatorTerm := by
  unfold Obligations.AccumulatorTerm
  refine ⟨rfl, fun p w u hp => ?_, fun r last w key u p => ⟨?_, ?_, ?_, ?_⟩⟩
  · have hd := Exact.scale_d_pos hp (16 - w)
    rw [← Exact.scale_window_n, ← Exact.scale_window_d]
    exact ⟨fun _ whole => srUnits_of_whole u hd whole, fun _ lo hi => srUnits_of_between u hd lo hi⟩
  · exact fun closed => Adding.term_of_closed closed last w u p
  · intro legal unsat within
    rw [Adding.term_of_inLim legal unsat last within]
    exact ⟨Tab.look_put_same .., rfl, fun k hk => Tab.look_put_ne _ _ _ hk⟩
  · rintro legal unsat beyond rfl
    rw [Adding.term_saturates legal unsat beyond]
    exact ⟨Tab.look_put_same .., List.mem_cons_self⟩
  · rintro legal unsat beyond rfl
    rw [Adding.term_loses_attempt legal unsat beyond]
    exact ⟨rfl, rfl⟩

end Sys2Proof.Machine
end
